-- ==== Sys2Proof/Word.lean ====
section
/-! DEFINITION. Word types of the Exzen: the widths that the manual gives registers, lanes and addresses, and the
plainest arithmetic on them. -/

namespace Sys2Proof

/-- One byte (R1). -/
abbrev Byte := BitVec 8
/-- An SCP register, a G-space address or any 64-bit field. -/
abbrev W64 := BitVec 64
/-- A 32-bit lane, cluster scalar or F-space address. -/
abbrev W32 := BitVec 32
/-- A vector register or an OPM slot: 4 KiB (R5). -/
abbrev VReg := BitVec 32768
/-- An accumulator: 64 x 64 elements of 32 bits (R5). -/
abbrev AccV := BitVec 131072
/-- A scale register: 512 bytes (R5). -/
abbrev ZReg := BitVec 4096
/-- An element mask: 2,048 bits (R392). -/
abbrev MaskR := BitVec 2048
/-- One 128-byte SRF line (R69). -/
abbrev Line := BitVec 1024
/-- One kernel bundle (R90). -/
abbrev BundleWord := BitVec 512
/-- A cause code (R197). -/
abbrev Cause := BitVec 10
/-- A physical SP, `die*17 + index` (R165). -/
abbrev SpId := Fin 68
/-- A die (R4). -/
abbrev DieId := Fin 4
/-- A cluster of an SP (R4). -/
abbrev ClId := Fin 8
/-- A copy channel of an SP (R6). -/
abbrev ChId := Fin 16
/-- A scoreboard tag of an SP (R6). -/
abbrev TagId := Fin 32
/-- An Equinox core (R18). -/
abbrev CoreId := Fin 12
/-- A context (R224). -/
abbrev CtxId := Fin 64
/-- A scale-up station (R16). -/
abbrev StId := Fin 16

/-- The index a 4-bit channel field names. -/
def chOf (b : BitVec 4) : ChId := b.toFin
/-- The index a 5-bit tag field names. -/
def tagOf (b : BitVec 5) : TagId := b.toFin
/-- The context a 6-bit field names. -/
def ctxOf (b : BitVec 6) : CtxId := b.toFin
/-- The die an SP stands on (R165). -/
def dieOf (sp : SpId) : DieId := ⟨sp.val / 17, by omega⟩

end Sys2Proof
end

