-- ==== Sys2Proof/Machine/Flags.lean ====
section
/-! DEFINITION. The flag words: KFLAGS of a cluster (R106), AFLAGS of a strand (R200), the tile status registers
(R105). -/

namespace Sys2Proof.Machine

open Sys2Proof

/-- KFLAGS, bits as R106 numbers them. -/
abbrev KF := BitVec 6
def fNV : KF := 1
def fDZ : KF := 2
def fOF : KF := 4
def fUF : KF := 8
def fNX : KF := 16
def fSAT : KF := 32

/-- The flag `f` if `b` holds. -/
def flagIf (b : Bool) (f : KF) : KF := if b then f else 0

/-- The OR of a list of flag words. -/
def orFlags (l : List KF) : KF := l.foldl (· ||| ·) 0

/-- AFLAGS after the KFLAGS of a kernel are merged into bits [5:0] (R106, R200). -/
def mergeKflags (aflags : BitVec 7) (k : KF) : BitVec 7 := aflags ||| k.setWidth 7

/-- AFLAGS with IDZ set (R200). -/
def setIdz (aflags : BitVec 7) : BitVec 7 := aflags ||| 0x40

/-- Whether tfence traps (R200). -/
def arithTrap (aflags afenable : BitVec 7) : Bool := aflags &&& afenable != 0

/-- Bits NAN, INF and COVF of a tile status register (R105). -/
def tsrNan : BitVec 3 := 1
def tsrInf : BitVec 3 := 2
def tsrCovf : BitVec 3 := 4

end Sys2Proof.Machine
end

