-- ==== Sys2Proof/Machine/Formats.lean ====
section
/-! DEFINITION. Number formats and arithmetic (spec/06): decoding to exact values, one rounding per result, the flags of
R106, block scales and SB4. Exact finite values are `m * 2^e` with a sign kept apart, so that zero has one. -/

namespace Sys2Proof.Machine

open Sys2Proof

/-! ## Rounding modes (R130) -/

inductive Rnd where
  | rne | rtz | rdn | rup
  deriving DecidableEq, Repr

def rndOf (b : BitVec 2) : Rnd :=
  match b.toNat with
  | 0 => .rne
  | 1 => .rtz
  | 2 => .rdn
  | _ => .rup

/-! ## Formats -/

/-- Which codes are special: IEEE infinities and NaNs (R114, E5M2 of R117), the single NaN of E4M3 (R117), none
(R118). -/
inductive Special where
  | ieee | e4m3 | none
  deriving DecidableEq, Repr

/-- A floating format: exponent bits, mantissa bits, specials. The bias is 2^(eb-1) - 1 in every one of them. -/
structure FFmt where
  eb : Nat
  mb : Nat
  sp : Special
  deriving DecidableEq, Repr

def fp32 : FFmt := ⟨8, 23, .ieee⟩
def bf16 : FFmt := ⟨8, 7, .ieee⟩
def fp16 : FFmt := ⟨5, 10, .ieee⟩
def e4m3 : FFmt := ⟨4, 3, .e4m3⟩
def e5m2 : FFmt := ⟨5, 2, .ieee⟩
def e3m2 : FFmt := ⟨3, 2, .none⟩
def e2m3 : FFmt := ⟨2, 3, .none⟩

def FFmt.width (f : FFmt) : Nat := 1 + f.eb + f.mb
def FFmt.bias (f : FFmt) : Int := (2 ^ (f.eb - 1) - 1 : Nat)
/-- The exponent of the least significant bit of the subnormals. -/
def FFmt.qmin (f : FFmt) : Int := 1 - f.bias - f.mb
/-- The greatest finite magnitude as a code without its sign. -/
def FFmt.maxCode (f : FFmt) : Nat :=
  match f.sp with
  | .ieee => (2 ^ f.eb - 1) * 2 ^ f.mb - 1
  | .e4m3 => 2 ^ (f.eb + f.mb) - 2
  | .none => 2 ^ (f.eb + f.mb) - 1
def FFmt.signBit (f : FFmt) : Nat := 2 ^ (f.eb + f.mb)
/-- ±∞ (IEEE formats). -/
def FFmt.infCode (f : FFmt) (neg : Bool) : Nat :=
  (2 ^ f.eb - 1) * 2 ^ f.mb + (if neg then f.signBit else 0)
/-- The default NaN (R115). -/
def FFmt.nanCode (f : FFmt) : Nat :=
  match f.sp with
  | .ieee => (2 ^ f.eb - 1) * 2 ^ f.mb + 2 ^ (f.mb - 1)
  | _ => 2 ^ (f.eb + f.mb) - 1

/-- A decoded value. -/
inductive NumVal where
  | nan (signalling : Bool)
  | inf (neg : Bool)
  | fin (neg : Bool) (m : Nat) (e : Int)
  deriving DecidableEq, Repr

def NumVal.isNan : NumVal → Bool
  | .nan _ => true
  | _ => false
def NumVal.isSNan : NumVal → Bool
  | .nan b => b
  | _ => false
def NumVal.isZero : NumVal → Bool
  | .fin _ m _ => m == 0
  | _ => false
def NumVal.isInf : NumVal → Bool
  | .inf _ => true
  | _ => false
def NumVal.neg : NumVal → Bool
  | .nan _ => false
  | .inf s => s
  | .fin s _ _ => s

/-- The value of a code (R114, R117, R118). -/
def FFmt.decode (f : FFmt) (c : Nat) : NumVal :=
  let mag := c % f.signBit
  let neg := c / f.signBit % 2 == 1
  let be := mag / 2 ^ f.mb
  let fr := mag % 2 ^ f.mb
  if f.sp = .ieee ∧ be = 2 ^ f.eb - 1 then
    if fr = 0 then .inf neg else .nan (f.eb + f.mb ≥ 15 && fr / 2 ^ (f.mb - 1) == 0)
  else if f.sp = .e4m3 ∧ mag = f.signBit - 1 then .nan false
  else if be = 0 then .fin neg fr f.qmin
  else .fin neg (2 ^ f.mb + fr) (f.qmin + (be - 1 : Nat))

/-! ## Rounding (R116, R130) -/

/-- What rounding gives: the code without sign (unbounded above), whether the result was tiny, whether inexact. -/
structure Rounded where
  code    : Nat
  tiny    : Bool
  inexact : Bool
  deriving DecidableEq, Repr

/-- The increment that the mode makes for quotient `q`, remainder `r` of divisor `d` and a nonzero tail. -/
def roundInc (mode : Rnd) (neg : Bool) (q r d : Nat) (tail : Bool) : Nat :=
  match mode with
  | .rtz => 0
  | .rdn => if neg && (r != 0 || tail) then 1 else 0
  | .rup => if !neg && (r != 0 || tail) then 1 else 0
  | .rne =>
    if 2 * r > d then 1
    else if 2 * r = d then (if tail then 1 else q % 2)
    else 0

/-- `m * 2^e`, with `tail` set when the exact magnitude lies strictly between `m * 2^e` and `(m+1) * 2^e`, as a
multiple of `2^q`. -/
def roundAt (mode : Rnd) (neg : Bool) (m : Nat) (e q : Int) (tail : Bool) : Nat × Bool :=
  if q ≤ e then (m * 2 ^ (e - q).toNat + (if tail then roundInc mode neg 0 0 1 true else 0), tail)
  else
    let d := 2 ^ (q - e).toNat
    (m / d + roundInc mode neg (m / d) (m % d) d tail, m % d != 0 || tail)

/-- Rounds a nonzero magnitude into a format. Tininess is detected after rounding. -/
def FFmt.round (f : FFmt) (mode : Rnd) (neg : Bool) (m : Nat) (e : Int) (tail : Bool) : Rounded :=
  let top : Int := e + Nat.log2 m
  let qn : Int := top - f.mb
  let q : Int := max qn f.qmin
  let r := roundAt mode neg m e q tail
  let code := (q - f.qmin).toNat * 2 ^ f.mb + r.1
  let u := roundAt mode neg m e qn tail
  let tiny := qn < f.qmin && !(qn + 1 == f.qmin && u.1 == 2 ^ (f.mb + 1))
  ⟨code, tiny, r.2⟩

/-- The code of a rounded finite value in an IEEE format, with OF, UF and NX (R116); overflow as the mode directs. -/
def FFmt.pack (f : FFmt) (mode : Rnd) (neg : Bool) (m : Nat) (e : Int) (tail : Bool) : Nat × KF :=
  let sg := if neg then f.signBit else 0
  if m = 0 then (sg, 0)
  else
    let r := f.round mode neg m e tail
    if r.code > f.maxCode then
      let toInf := match mode with
        | .rne => true
        | .rtz => false
        | .rdn => neg
        | .rup => !neg
      (if toInf then f.infCode neg else f.maxCode + sg, fOF ||| fNX)
    else (r.code + sg, flagIf (r.tiny && r.inexact) fUF ||| flagIf r.inexact fNX)

/-- A value as a code of an IEEE format; `z` is the sign an exact zero takes. -/
def FFmt.ofNum (f : FFmt) (mode : Rnd) (x : NumVal) : Nat × KF :=
  match x with
  | .nan s => (f.nanCode, flagIf s fNV)
  | .inf n => (f.infCode n, 0)
  | .fin n m e => f.pack mode n m e false

/-! ## Exact arithmetic -/

/-- The signed integer `m` of a value at exponent `e0 ≤ e`. -/
def alignInt (neg : Bool) (m : Nat) (e e0 : Int) : Int :=
  let v : Int := m * 2 ^ (e - e0).toNat
  if neg then -v else v

/-- A value from a signed integer; `zneg` is the sign of zero. -/
def ofSigned (v : Int) (e : Int) (zneg : Bool) : NumVal := .fin (if v = 0 then zneg else v < 0) v.natAbs e

/-- Exact sum (R130): with the flag of an invalid operation. -/
def addNum (mode : Rnd) (a b : NumVal) : NumVal × KF :=
  match a, b with
  | .nan s, y => (.nan false, flagIf (s || y.isSNan) fNV)
  | x, .nan s => (.nan false, flagIf (s || x.isSNan) fNV)
  | .inf s, .inf t => if s = t then (.inf s, 0) else (.nan false, fNV)
  | .inf s, .fin .. => (.inf s, 0)
  | .fin .., .inf t => (.inf t, 0)
  | .fin s m e, .fin t n g =>
    let e0 := min e g
    let zneg := if m = 0 ∧ n = 0 ∧ s = t then s else mode = .rdn
    (ofSigned (alignInt s m e e0 + alignInt t n g e0) e0 zneg, 0)

def negNum : NumVal → NumVal
  | .nan s => .nan s
  | .inf n => .inf !n
  | .fin n m e => .fin (!n) m e

/-- Exact product. -/
def mulNum (a b : NumVal) : NumVal × KF :=
  match a, b with
  | .nan s, y => (.nan false, flagIf (s || y.isSNan) fNV)
  | x, .nan s => (.nan false, flagIf (s || x.isSNan) fNV)
  | .inf s, .inf t => (.inf (s != t), 0)
  | .inf s, .fin t n _ => if n = 0 then (.nan false, fNV) else (.inf (s != t), 0)
  | .fin s m _, .inf t => if m = 0 then (.nan false, fNV) else (.inf (s != t), 0)
  | .fin s m e, .fin t n g => (.fin (s != t) (m * n) (e + g), 0)

/-- `x * 2^k` for a finite value. -/
def scaleNum (x : NumVal) (k : Int) : NumVal :=
  match x with
  | .fin n m e => .fin n m (e + k)
  | y => y

/-- The order of two numbers that are not NaN; zeros are equal (R133 rule 2). -/
def ltNum (a b : NumVal) : Bool :=
  match a, b with
  | .nan _, _ => false
  | _, .nan _ => false
  | .inf s, .inf t => s && !t
  | .inf s, .fin .. => s
  | .fin .., .inf t => !t
  | .fin s m e, .fin t n g =>
    let e0 := min e g
    decide (alignInt s m e e0 < alignInt t n g e0)

def eqNum (a b : NumVal) : Bool := !a.isNan && !b.isNan && !ltNum a b && !ltNum b a

/-! ## IEEE operations on codes (R130, R395) -/

/-- Rounds the exact result `r` of an operation whose invalid flag is already known. -/
def FFmt.fin (f : FFmt) (mode : Rnd) (r : NumVal × KF) : Nat × KF :=
  let p := f.ofNum mode r.1
  (p.1, p.2 ||| r.2)

def FFmt.add (f : FFmt) (mode : Rnd) (a b : Nat) : Nat × KF := f.fin mode (addNum mode (f.decode a) (f.decode b))
def FFmt.sub (f : FFmt) (mode : Rnd) (a b : Nat) : Nat × KF :=
  f.fin mode (addNum mode (f.decode a) (negNum (f.decode b)))
def FFmt.mul (f : FFmt) (mode : Rnd) (a b : Nat) : Nat × KF := f.fin mode (mulNum (f.decode a) (f.decode b))

/-- vfma: exact product and sum, one rounding. A NaN operand gives the default NaN, with NV only for a signalling one
(R115). -/
def FFmt.fma (f : FFmt) (mode : Rnd) (a b c : Nat) : Nat × KF :=
  let x := f.decode a
  let y := f.decode b
  let z := f.decode c
  if x.isNan || y.isNan || z.isNan then (f.nanCode, flagIf (x.isSNan || y.isSNan || z.isSNan) fNV)
  else
    let p := mulNum x y
    if p.1.isNan then (f.nanCode, fNV) else f.fin mode (addNum mode p.1 z)

/-- vmin (`least`) and vmax: the default NaN for a NaN operand; -0 below +0 (R130). -/
def FFmt.minMax (f : FFmt) (least : Bool) (a b : Nat) : Nat × KF :=
  let x := f.decode a
  let y := f.decode b
  if x.isNan || y.isNan then (f.nanCode, flagIf (x.isSNan || y.isSNan) fNV)
  else
    let below := ltNum x y || (x.isZero && y.isZero && x.neg && !y.neg)
    let lt := ltNum x y || ltNum y x || (x.isZero && y.isZero)
    let pickA := if least then below || !lt else !below
    (if pickA then a else b, 0)

/-! ## Reciprocal and inverse square root (R131) -/

/-- Integer square root by bits: the greatest `r < 2^k` with `r * r ≤ n`. -/
def isqrtAux (n : Nat) : Nat → Nat → Nat
  | 0, r => r
  | k + 1, r => if (r + 2 ^ k) * (r + 2 ^ k) ≤ n then isqrtAux n k (r + 2 ^ k) else isqrtAux n k r

def isqrt (n : Nat) : Nat := isqrtAux n (Nat.log2 n / 2 + 1) 0

def FFmt.rcp (f : FFmt) (mode : Rnd) (a : Nat) : Nat × KF :=
  match f.decode a with
  | .nan s => (f.nanCode, flagIf s fNV)
  | .inf n => (if n then f.signBit else 0, 0)
  | .fin n m e =>
    if m = 0 then (f.infCode n, fDZ)
    else
      let k := Nat.log2 m + 64
      f.pack mode n (2 ^ k / m) (-(k : Int) - e) (2 ^ k % m != 0)

def FFmt.rsq (f : FFmt) (mode : Rnd) (a : Nat) : Nat × KF :=
  match f.decode a with
  | .nan s => (f.nanCode, flagIf s fNV)
  | .inf n => if n then (f.nanCode, fNV) else (0, 0)
  | .fin n m e =>
    if m = 0 then (f.infCode n, fDZ)
    else if n then (f.nanCode, fNV)
    else
      let odd := e % 2 ≠ 0
      let m' := if odd then 2 * m else m
      let e' := if odd then e - 1 else e
      let k := Nat.log2 m' + 64
      let q := 2 ^ (2 * k) / m'
      let r := isqrt q
      f.pack mode false r (-(k : Int) - e' / 2) (r * r * m' != 2 ^ (2 * k))

/-! ## 2^x and log2 x to enough bits to know the two neighbours (R131) -/

/-- Working precision in bits. -/
def xprec : Nat := 256

/-- `2^f` for `f = 0.b1 b2 …` given as the numerator `fr` over `2^n`, truncated to `xprec` bits; `root` is `2^(2^-i)`. -/
def exp2Frac (fr n : Nat) : Nat → Nat → Nat → Nat
  | 0, _, acc => acc
  | k + 1, root, acc =>
    let root' := isqrt (root * 2 ^ xprec)
    let acc' := if fr / 2 ^ (n - (xprec - k)) % 2 = 1 ∧ xprec - k ≤ n then acc * root' / 2 ^ xprec else acc
    exp2Frac fr n k root' acc'

/-- The binary digits of `log2 (x / 2^xprec)` for `1 ≤ x / 2^xprec < 2`, one a squaring. -/
def log2Frac : Nat → Nat → Nat → Nat
  | 0, _, acc => acc
  | k + 1, x, acc =>
    let y := x * x / 2 ^ xprec
    if y ≥ 2 ^ (xprec + 1) then log2Frac k (y / 2) (2 * acc + 1) else log2Frac k y (2 * acc)

/-- vexp2; `up` chooses between the two neighbours of an inexact result. -/
def FFmt.exp2 (f : FFmt) (up : Bool) (a : Nat) : Nat × KF :=
  let mode : Rnd := if up then .rup else .rdn
  match f.decode a with
  | .nan s => (f.nanCode, flagIf s fNV)
  | .inf n => (if n then 0 else f.infCode false, 0)
  | .fin n m e =>
    if m = 0 then f.pack .rne false 1 0 false
    else if e + Nat.log2 m > 16 then (if n then (0, fUF ||| fNX) else (f.infCode false, fOF ||| fNX))
    else
      let k := (-e).toNat
      let v : Int := alignInt n m e (min e 0)
      let i : Int := v / 2 ^ k
      let fr : Nat := (v % 2 ^ k).toNat
      if fr = 0 then
        if i > 2 ^ (f.eb - 1) - 1 then (f.infCode false, fOF ||| fNX)
        else if i < f.qmin - 1 then (0, fUF ||| fNX)
        else f.pack (if i < f.qmin then mode else .rne) false 1 i false
      else if i < f.qmin - 1 then (0, fUF ||| fNX)
      else if i > 2 ^ (f.eb - 1) - 1 then (f.infCode false, fOF ||| fNX)
      else f.pack mode false (exp2Frac fr k xprec (2 * 2 ^ xprec) (2 ^ xprec)) (i - xprec) true

/-- vlog2; `up` chooses between the two neighbours of an inexact result. -/
def FFmt.log2 (f : FFmt) (up : Bool) (a : Nat) : Nat × KF :=
  let mode : Rnd := if up then .rup else .rdn
  match f.decode a with
  | .nan s => (f.nanCode, flagIf s fNV)
  | .inf n => if n then (f.nanCode, fNV) else (f.infCode false, 0)
  | .fin n m e =>
    if m = 0 then (f.infCode true, fDZ)
    else if n then (f.nanCode, fNV)
    else
      let l := Nat.log2 m
      let i : Int := e + l
      if m = 2 ^ l then
        if i = 0 then (0, 0) else f.pack .rne (i < 0) i.natAbs 0 false
      else
        let d := log2Frac 160 (m * 2 ^ (xprec - l)) 0
        let v : Int := i * 2 ^ 160 + d
        if v < 0 then f.pack mode true (v.natAbs - 1) (-160) true else f.pack mode false v.natAbs (-160) true

/-! ## Lane formats of the VA field (R111, R112) -/

/-- The lane formats: three floating, four integer. -/
inductive LFmt where
  | f (x : FFmt)
  | int (w : Nat) (signed : Bool)
  deriving DecidableEq, Repr

def laneFmt (c : BitVec 3) : LFmt :=
  match c.toNat with
  | 0 => .f fp32
  | 1 => .f bf16
  | 2 => .f fp16
  | 3 => .int 32 true
  | 4 => .int 16 true
  | 5 => .int 32 false
  | _ => .int 16 false

/-- Element width of a VA code (R392). -/
def fmtW (c : BitVec 3) : Nat := if c == 0 || c == 3 || c == 5 then 32 else 16

/-- An integer element as its format reads it. -/
def intVal (w : Nat) (signed : Bool) (c : Nat) : Int :=
  if signed && c / 2 ^ (w - 1) % 2 == 1 then (c % 2 ^ w : Nat) - (2 ^ w : Nat) else (c % 2 ^ w : Nat)

def intMin (w : Nat) (signed : Bool) : Int := if signed then -(2 ^ (w - 1) : Nat) else 0
def intMax (w : Nat) (signed : Bool) : Int := if signed then (2 ^ (w - 1) - 1 : Nat) else (2 ^ w - 1 : Nat)

/-- The low `w` bits of an integer. -/
def intBits (w : Nat) (v : Int) : Nat := (v % (2 ^ w : Nat)).toNat

/-- Wraps, or saturates with the given flag (R113). -/
def intFit (w : Nat) (signed sat : Bool) (fl : KF) (v : Int) : Nat × KF :=
  if sat && v < intMin w signed then (intBits w (intMin w signed), fl)
  else if sat && v > intMax w signed then (intBits w (intMax w signed), fl)
  else (intBits w v, 0)

/-- A value rounded to an integer in a mode, with whether it was inexact. -/
def roundToInt (mode : Rnd) (neg : Bool) (m : Nat) (e : Int) : Int × Bool :=
  let r := roundAt mode neg m e 0 false
  (if neg then -(r.1 : Int) else r.1, r.2)

/-- vcvt of one element (R132, R400). -/
def cvt (src dst : LFmt) (mode : Rnd) (c : Nat) : Nat × KF :=
  match src, dst with
  | .f a, .f b =>
    match a.decode c with
    | .nan s => (b.nanCode, flagIf s fNV)
    | x => b.ofNum mode x
  | .int w s, .f b =>
    let v := intVal w s c
    b.pack mode (v < 0) v.natAbs 0 false
  | .f a, .int w s =>
    match a.decode c with
    | .nan _ => (0, fNV)
    | .inf n => (intBits w (if n then intMin w s else intMax w s), fNV)
    | .fin n m e =>
      let r := roundToInt mode n m e
      if r.1 < intMin w s then (intBits w (intMin w s), fNV)
      else if r.1 > intMax w s then (intBits w (intMax w s), fNV)
      else (intBits w r.1, flagIf r.2 fNX)
  | .int w s, .int w' s' => intFit w' s' true fSAT (intVal w s c)

/-! ## Exact sums (R128, R407) -/

/-- The exact sum of finite values at exponent `e0`. -/
def sumAt (e0 : Int) : List NumVal → Int
  | [] => 0
  | .fin n m e :: l => alignInt n m e e0 + sumAt e0 l
  | _ :: l => sumAt e0 l

/-- The least exponent among finite values. -/
def minExp : List NumVal → Int → Int
  | [], e => e
  | .fin _ _ g :: l, e => minExp l (min g e)
  | _ :: l, e => minExp l e

/-- The exact sum of a list (R407): NaN, opposite infinities, one kind of infinity, zero signs. -/
def sumNum (l : List NumVal) : NumVal × KF :=
  let pinf := l.any fun x => x.isInf && !x.neg
  let ninf := l.any fun x => x.isInf && x.neg
  let clash := pinf && ninf
  let nv := flagIf (clash || l.any NumVal.isSNan) fNV
  if clash || l.any NumVal.isNan then (.nan false, nv)
  else if pinf then (.inf false, 0)
  else if ninf then (.inf true, 0)
  else
    let e0 := minExp l 0
    (ofSigned (sumAt e0 l) e0 (!l.isEmpty && l.all fun x => x.isZero && x.neg), 0)

/-- The reductions of R406: 0 add, 1 max, 2 min, 3 and, 4 or, 5 xor. -/
def reduce (op : BitVec 4) (fm : LFmt) (l : List Nat) : Nat × KF :=
  match fm with
  | .f f =>
    if op = 0 then f.fin .rne (sumNum (l.map f.decode))
    else if op = 1 then l.foldl (fun a c => let r := f.minMax false a.1 c; (r.1, a.2 ||| r.2)) (f.infCode true, 0)
    else l.foldl (fun a c => let r := f.minMax true a.1 c; (r.1, a.2 ||| r.2)) (f.infCode false, 0)
  | .int w s =>
    let z : Nat :=
      if op = 0 then l.foldl (fun a c => (a + c) % 2 ^ w) 0
      else if op = 1 then
        l.foldl (fun a c => if intVal w s a < intVal w s c then c else a) (intBits w (intMin w s))
      else if op = 2 then
        l.foldl (fun a c => if intVal w s c < intVal w s a then c else a) (intBits w (intMax w s))
      else if op = 3 then l.foldl (fun a c => a &&& c) (2 ^ w - 1)
      else if op = 4 then l.foldl (fun a c => a ||| c) 0
      else l.foldl (fun a c => a ^^^ c) 0
    (z, 0)

/-! ## The narrow side (R117 to R126) -/

/-- A narrow floating format of the UP and PK field; code 4 is SB4 and code 5 INT8. -/
def narrowFmt (c : BitVec 3) : FFmt :=
  match c.toNat with
  | 0 => e4m3
  | 1 => e5m2
  | 2 => e3m2
  | _ => e2m3

/-- Bits of one narrow element (R119). -/
def narrowW (c : BitVec 3) : Nat :=
  match c.toNat with
  | 2 => 6
  | 3 => 6
  | 4 => 4
  | _ => 8

/-- The value of an SB4 element code with spare byte `sp`, before the scale (R122). -/
def sb4Num (c sp : Nat) : NumVal :=
  if c = 8 then e4m3.decode sp
  else
    let mags : List Nat := [0, 1, 2, 3, 4, 6, 8, 12]
    .fin (c / 8 == 1) (mags.getD (c % 8) 0) (-1)

/-- A pack of one wide value into a narrow code, the value already divided by its scale (R125). -/
def packNarrow (f : FFmt) (x : NumVal) : Nat × KF :=
  match x with
  | .nan _ => (if f.sp = .none then 0 else f.nanCode, fNV)
  | .inf n =>
    if f.sp = .ieee then (f.infCode n, 0) else (f.maxCode + (if n then f.signBit else 0), fSAT)
  | .fin n m e =>
    let sg := if n then f.signBit else 0
    if m = 0 then (sg, 0)
    else
      let r := f.round .rne n m e false
      if r.code > f.maxCode then
        if f.sp = .ieee then (f.infCode n, fOF ||| fNX) else (f.maxCode + sg, fSAT ||| fNX)
      else (r.code + sg, flagIf (r.tiny && r.inexact) fUF ||| flagIf r.inexact fNX)

/-- Magnitude order of finite values. -/
def absLt (a b : NumVal) : Bool :=
  match a, b with
  | .fin _ m e, .fin _ n g => ltNum (.fin false m e) (.fin false n g)
  | _, _ => false

/-- The greatest magnitude of a block and the lowest index that has it. -/
def blockMax : List NumVal → Nat → NumVal × Nat → NumVal × Nat
  | [], _, best => best
  | x :: l, j, best => blockMax l (j + 1) (if absLt best.1 x then (x, j) else best)

def hasSpecial (l : List NumVal) : Bool := l.any fun x => x.isNan || x.isInf

/-- `floor(log2 |x|)` of a nonzero finite value. -/
def floorLog2 : NumVal → Int
  | .fin _ m e => e + Nat.log2 m
  | _ => 0

/-- The scale byte for a greatest finite exponent `emax`, with SAT at the upper clamp (R123, R126). -/
def scaleByte (amax : NumVal) (emax : Int) : Nat × KF :=
  let v := floorLog2 amax - emax + 127
  if v > 254 then (254, fSAT) else (v.toNat, 0)

/-- pscale of one block for E4M3, E5M2, E3M2 and E2M3 (R126). -/
def pscaleBlock (fmt : BitVec 3) (l : List NumVal) : Nat × KF :=
  if hasSpecial l then (0xFF, fNV)
  else
    let b := blockMax l 0 (.fin false 0 0, 0)
    if b.1.isZero then (0x7F, 0)
    else scaleByte b.1 (match fmt.toNat with
      | 0 => 8
      | 1 => 15
      | 2 => 4
      | _ => 2)

/-- `|y - x|` as an exact value, for finite values. -/
def distNum (x y : NumVal) : NumVal :=
  match (addNum .rne x (negNum y)).1 with
  | .fin _ m e => .fin false m e
  | z => z

/-- One step of nearest(): the better of the best code so far and a candidate (R123 ties: even code among the grid, grid
before spare). -/
def nearer (y : NumVal) (best cand : Nat × NumVal) : Nat × NumVal :=
  let db := distNum y best.2
  let dc := distNum y cand.2
  if ltNum dc db then cand
  else if ltNum db dc then best
  else if cand.1 = 8 then best
  else if best.1 = 8 then cand
  else if best.1 % 2 = 0 then best else cand

/-- The grid codes of SB4. -/
def sb4Grid : List Nat := [0, 1, 2, 3, 4, 5, 6, 7, 9, 10, 11, 12, 13, 14, 15]

/-- nearest() of R123. -/
def sb4Nearest (y sv : NumVal) : Nat × NumVal :=
  let grid := sb4Grid.map fun c => (c, sb4Num c 0)
  let best := grid.foldl (nearer y) (0, sb4Num 0 0)
  if grid.any fun c => eqNum c.2 sv then best else nearer y best (8, sv)

/-- An encoded SB4 block (R123). -/
structure Sb4Block where
  codes : List Nat
  scale : Nat
  spare : Nat
  flags : KF
  deriving DecidableEq, Repr

/-- sb4_encode (R123). -/
def sb4Encode (l : List NumVal) : Sb4Block :=
  if hasSpecial l then ⟨l.map fun _ => 0, 0xFF, 0, fNV⟩
  else
    let b := blockMax l 0 (.fin false 0 0, 0)
    if b.1.isZero then ⟨l.map fun _ => 0, 0x7F, 0, 0⟩
    else
      let sc := scaleByte b.1 2
      let s : Int := (sc.1 : Int) - 127
      let sp := packNarrow e4m3 (scaleNum (l.getD b.2 (.fin false 0 0)) (-s))
      let sv := e4m3.decode sp.1
      let cs := l.map fun x => let y := scaleNum x (-s); (sb4Nearest y sv, y)
      ⟨cs.map fun c => c.1.1, sc.1, sp.1,
        sc.2 ||| orFlags (cs.map fun c => flagIf (!eqNum c.1.2 c.2) fNX)⟩

/-! ## mma (R128) -/

/-- An operand element as mma sees it: its value with its scale, and whether it raises NV as a NaN (a signalling NaN of
a BF16, FP16 or FP32 operand, or a block that decodes as NaN). -/
structure MElem where
  val : NumVal
  nv  : Bool
  deriving DecidableEq, Repr

/-- mma_elem: the new accumulator code and the flags, from the products of one row and column. -/
def mmaElem (acc : Nat) (l : List (MElem × MElem)) : Nat × KF :=
  let a := fp32.decode acc
  let prods := l.map fun p => mulNum p.1.val p.2.val
  let opNan := l.any fun p => p.1.val.isNan || p.2.val.isNan
  let zeroInf := l.any fun p => !p.1.val.isNan && !p.2.val.isNan && (mulNum p.1.val p.2.val).1.isNan
  let pinf := prods.any fun p => p.1.isInf && !p.1.neg
  let ninf := prods.any fun p => p.1.isInf && p.1.neg
  let nv := a.isSNan || (l.any fun p => p.1.nv || p.2.nv) || zeroInf || (pinf && ninf)
  if a.isNan || opNan || zeroInf || (pinf && ninf) then (fp32.nanCode, flagIf nv fNV)
  else
    let t : NumVal × KF :=
      if pinf then (.inf false, 0)
      else if ninf then (.inf true, 0)
      else
        let ps := prods.map fun p => p.1
        let e0 := minExp ps 0
        let c := fp32.ofNum .rne (ofSigned (sumAt e0 ps) e0 (!ps.isEmpty && ps.all fun x => x.isZero && x.neg))
        (fp32.decode c.1, c.2)
    let r := fp32.fin .rne (addNum .rne a t.1)
    (r.1, r.2 ||| t.2)

/-- The integer sum of an INT8 mma (R330). -/
def mmaInt (acc : Nat) (l : List (Nat × Nat)) : Nat :=
  intBits 32 ((acc : Int) + (l.map fun p => intVal 8 true p.1 * intVal 8 true p.2).sum)

/-! ## mdrain (R129) -/

/-- One drained element: its code, its TSR bits (NAN, INF, COVF) and its flags. -/
def drainElem (fmt : BitVec 3) (c : Nat) : Nat × BitVec 3 × KF :=
  let fl (f : FFmt) : Nat × BitVec 3 × KF :=
    match fp32.decode c with
    | .nan s => (f.nanCode, 1, flagIf s fNV)
    | .inf n => (f.infCode n, 2, 0)
    | x =>
      let r := f.ofNum .rne x
      (r.1, if r.2 &&& fOF != 0 then 4 else 0, r.2)
  match fmt.toNat with
  | 0 => fl fp32
  | 1 => fl bf16
  | 2 => fl fp16
  | 3 => (c, 0, 0)
  | _ =>
    let r := intFit 16 true true fSAT (intVal 32 true c)
    (r.1, if r.2 != 0 then 4 else 0, r.2)

end Sys2Proof.Machine
end

