-- ==== Sys2Proof/Machine/Causes.lean ====
section
/-! DEFINITION. The cause codes of R197: class in bits [9:7], number within the class in bits [6:0]. -/

namespace Sys2Proof.Machine

open Sys2Proof

/-! Class: SCP synchronous. -/

def cIllegalInstruction : Cause := 0x001
def cTrapUser : Cause := 0x002
def cArithTrap : Cause := 0x003
def cSvcCall : Cause := 0x004
def cTrapNested : Cause := 0x005
def cTrapNoHandler : Cause := 0x006
def cGbarParkedSeat : Cause := 0x007

/-! Class: Kernel. -/

def cKernelStallShort : Cause := 0x080
def cKernelPortConflict : Cause := 0x081
def cKernelSlotBusy : Cause := 0x082
def cKernelRstackOverflow : Cause := 0x083
def cKernelRstackUnderflow : Cause := 0x084
def cKernelRepRange : Cause := 0x085
def cKernelRepConflict : Cause := 0x086
def cKernelOpmClaimed : Cause := 0x087
def cKernelOpmUnclaimed : Cause := 0x088
def cKernelLendBusy : Cause := 0x089
def cKernelBankLent : Cause := 0x08A
def cKernelAccAbsent : Cause := 0x08B
def cKernelBankForeign : Cause := 0x08C
def cKernelCursorUnbound : Cause := 0x08D
def cKernelFeTimeout : Cause := 0x08E
def cKloadIllegalEncoding : Cause := 0x08F
def cKrunBindingBad : Cause := 0x090

/-! Class: Translation and memory. -/

def cGMisaligned : Cause := 0x100
def cFMisaligned : Cause := 0x101
def cFSpaceHole : Cause := 0x102
def cFFeTimeout : Cause := 0x103
def cApertureMisuse : Cause := 0x104
def cVaRange : Cause := 0x105
def cPageNotPresent : Cause := 0x106
def cPageWriteDenied : Cause := 0x107
def cPageExecDenied : Cause := 0x108
def cPteBad : Cause := 0x109
def cPtePaInvalid : Cause := 0x10A
def cPteLocalityMismatch : Cause := 0x10B
def cRemoteMapInvalid : Cause := 0x10C
def cMediaError : Cause := 0x10D
def cHostPageError : Cause := 0x10E

/-! Class: Fabric and remote. -/

def cSahatMalformed : Cause := 0x180
def cKeyInvalid : Cause := 0x181
def cKeyStale : Cause := 0x182
def cKeyRange : Cause := 0x183
def cKeyPerm : Cause := 0x184
def cSrfAbsent : Cause := 0x185
def cRemotePageFault : Cause := 0x186
def cRemoteMediaError : Cause := 0x187
def cFabricTimeout : Cause := 0x188
def cFabricLinkDown : Cause := 0x189
def cAccUnreachable : Cause := 0x18A
def cRemoteAopUnsupported : Cause := 0x18B
def cSlackExhausted : Cause := 0x18C

/-! Class: Stream and copy. -/

def cCopyTemplateBad : Cause := 0x200
def cCopyFeTimeout : Cause := 0x201
def cCopySaddPage : Cause := 0x202
def cCopyNetError : Cause := 0x203

/-! Class: Scheduling. -/

def cLaunchRecordBad : Cause := 0x280
def cLaunchKimBad : Cause := 0x281
def cLaunchIdBusy : Cause := 0x282
def cLaunchPredFailed : Cause := 0x283
def cTaskRecordBad : Cause := 0x284
def cGraphCountUnderflow : Cause := 0x285
def cGraphStalled : Cause := 0x286
def cGraphPoisoned : Cause := 0x287
def cContRecordBad : Cause := 0x288
def cDealDescBad : Cause := 0x289
def cDealMapBad : Cause := 0x28A
def cJobStopped : Cause := 0x28B
def cWatchdogHang : Cause := 0x28C
def cSaveTimeout : Cause := 0x28D
def cSaveTimeoutNorb : Cause := 0x28E
def cLaunchGangUnplaceable : Cause := 0x28F

/-! Class: RAS. -/

def cSramUncorrectable : Cause := 0x300
def cSpRetired : Cause := 0x301
def cSpFailedNorb : Cause := 0x302
def cSrfUnrecoverable : Cause := 0x303
def cLinkDegraded : Cause := 0x304

/-! Class: Equinox. -/

def cEqxIllegalInstruction : Cause := 0x380
def cEqxImemEcc : Cause := 0x381
def cEqxQpacketBad : Cause := 0x382
def cQueueErrored : Cause := 0x383
def cQueueTableRestored : Cause := 0x384
def cMmrUnsupported : Cause := 0x385
def cErratumUnsupported : Cause := 0x386
def cDuplicateSymbol : Cause := 0x387
def cZcoBad : Cause := 0x388

end Sys2Proof.Machine
end

