-- ==== Sys2Proof/Syntax.lean ====
section
/-! DEFINITION. Syntax: the one inductive `Instr`, one constructor for each row of spec/opcode_table.json. The table
lists the device's steps, each whole and indivisible: the instructions of the SCP, of the kernel slots and of the
Equinox cores, the queue commands, and the device's own events. Reserved field values can be written down here;
`WellFormed` refuses them. -/

namespace Sys2Proof

/-- An SCP register field (R256). -/
abbrev SReg := BitVec 6
/-- A guard: bit 4 negates, bits [3:0] select p0 to p15 (R91). -/
abbrev Guard := BitVec 5

/-- The memory layout of MOD (R258). -/
structure MemMod where
  size  : BitVec 2
  order : BitVec 2
  scope : BitVec 3
  urg   : BitVec 2
  deriving DecidableEq, Repr, Inhabited

/-- The stream layout of MOD (R258). -/
structure StrMod where
  chan : BitVec 4
  urg  : BitVec 2
  tag  : BitVec 5
  deriving DecidableEq, Repr, Inhabited

/-- A vector source operand: hold bit and selector (R92). -/
structure VSrc where
  hold : Bool
  sel  : BitVec 6
  deriving DecidableEq, Repr, Inhabited

/-- The mask fields MEN and MSK (R263). -/
structure MSel where
  men : Bool
  msk : BitVec 3
  deriving DecidableEq, Repr, Inhabited

/-- The three operand bytes of a custom-0 word (R222). -/
structure RArgs where
  rd  : BitVec 5
  rs1 : BitVec 5
  rs2 : BitVec 5
  deriving DecidableEq, Repr, Inhabited

/-- A queue command as its packet carries it (R226): context and number of its queue, result-word address and four
arguments. -/
structure Cmd where
  ctx  : CtxId
  qid  : BitVec 12
  rslt : W64
  a0   : W64
  a1   : W64
  a2   : W64
  a3   : W64
  deriving DecidableEq, Repr, Inhabited

/-- The device registers that only Equinox cores reach (R60, R71, R110, R172). -/
inductive DevReg where
  | dispage (die : DieId)
  | fetime (die : DieId)
  | fabtime
  | pwrlim (sp : SpId)
  deriving DecidableEq, Repr

/-- A RoCEv2 request at a host-attach or scale-out port (R237): queue pair, remote key, address. -/
structure RdmaReq where
  qp  : BitVec 14
  key : W32
  va  : W64
  deriving DecidableEq, Repr, Inhabited

/-- The Sahat header (R161). -/
structure SahatHdr where
  typ   : BitVec 6
  aop   : BitVec 4
  dst   : BitVec 11
  src   : BitVec 11
  stn   : BitVec 4
  tag   : BitVec 12
  slack : BitVec 12
  ovd   : Bool
  ord   : Bool
  res0  : BitVec 2
  key   : W32
  len   : BitVec 8
  cause : Cause
  res1  : BitVec 14
  addr  : BitVec 57
  res2  : BitVec 7
  ssid  : BitVec 16
  seq   : BitVec 48
  deriving DecidableEq, Repr, Inhabited

/-- Who waits on an empty SRF line (R70). -/
inductive FeReader where
  | scp (sp : SpId)
  | kernel (sp : SpId)
  | copy (sp : SpId) (ch : ChId)
  | remote (k : Nat)
  deriving DecidableEq, Repr

/-- The units that hold translations (R204, R205). -/
inductive TlbUnit where
  | sp (sp : SpId)
  | die (die : DieId)
  deriving DecidableEq, Repr

/-- Where an ECC error lies (R244, R245). -/
inductive ErrLoc where
  | hbm (pa : Nat)
  | spData (sp : SpId)
  | spControl (sp : SpId)
  | eqxImem (core : CoreId)
  | l2 (die : DieId)
  | queueTable (ctx : CtxId) (qid : BitVec 12) (copyB : Bool)
  | kickTable (ctx : CtxId) (copyB : Bool)
  deriving DecidableEq, Repr

/-- Where the front end places the seats of a gang: the SP of seat n is entry n (R28: the choice is the device's). -/
abbrev Placement := List SpId

/-- The steps of the device. -/
inductive Instr where
  -- SCP instructions (R256 to R261)
  | nop
  | trap (code : BitVec 20)
  | svc (code : BitVec 20)
  | tfence
  | fence (order : BitVec 2) (scope : BitVec 3)
  | ckpt (off : BitVec 20)
  | susp
  | tend
  | sget (d : SReg) (num : BitVec 12)
  | sset (a : SReg) (num : BitVec 12)
  | wset (k : BitVec 4) (a b : SReg)
  | gbar
  | add (d a b : SReg)
  | sub (d a b : SReg)
  | mul (d a b : SReg)
  | mulh (sgn : Bool) (d a b : SReg)
  | div (sgn : Bool) (d a b : SReg)
  | rem (sgn : Bool) (d a b : SReg)
  | and (d a b : SReg)
  | or (d a b : SReg)
  | xor (d a b : SReg)
  | shl (d a b : SReg)
  | shr (d a b : SReg)
  | sra (d a b : SReg)
  | min (sgn : Bool) (d a b : SReg)
  | max (sgn : Bool) (d a b : SReg)
  | cmp (cond : BitVec 4) (d a b : SReg)
  | csel (d a b c : SReg)
  | addi (d a : SReg) (imm : BitVec 20)
  | li (d : SReg) (imm : BitVec 50)
  | bfx (d a : SReg) (lsb wm1 : BitVec 6)
  | bfi (d a : SReg) (lsb wm1 : BitVec 6)
  | b (cond : BitVec 4) (a b : SReg) (imm : BitVec 20)
  | j (imm : BitVec 20)
  | jal (d : SReg) (imm : BitVec 20)
  | jr (a : SReg)
  | ldg (m : MemMod) (d a : SReg) (imm : BitVec 20)
  | ldf (m : MemMod) (d a : SReg) (imm : BitVec 20)
  | stg (m : MemMod) (a b : SReg) (imm : BitVec 20)
  | stf (m : MemMod) (a b : SReg) (imm : BitVec 20)
  | amog (m : MemMod) (code : BitVec 4) (d a b c : SReg)
  | amof (m : MemMod) (code : BitVec 4) (d a b c : SReg)
  | scopy (m : StrMod) (ti : BitVec 16) (a b : SReg)
  | sfence (m : StrMod) (mask : BitVec 16) (a : SReg)
  | swait (m : StrMod) (a b : SReg)
  | swaitWp (m : StrMod) (a b : SReg)
  | kload (m : StrMod) (kbase : BitVec 12) (a b c : SReg)
  | krun (m : StrMod) (entry : BitVec 12) (chk : Bool) (a b : SReg)
  | launch (d a : SReg)
  | trig
  | twait (d : SReg)
  | twaitId (d a : SReg)
  | deal (d a : SReg)
  | undeal (d a : SReg)
  -- SA slot (R276)
  | aadd (g : Guard) (ad a1 a2 : BitVec 5) (lsel : Bool)
  | aaddi (g : Guard) (ad a1 : BitVec 5) (imm : BitVec 14)
  | asub (g : Guard) (ad a1 a2 : BitVec 5) (lsel : Bool)
  | amul (g : Guard) (ad a1 a2 : BitVec 5) (lsel : Bool)
  | ali (g : Guard) (ad : BitVec 5)
  | acmp (g : Guard) (cond : BitVec 3) (pd : BitVec 4) (a1 a2 : BitVec 5) (lsel : Bool)
  | asel (g : Guard) (ad : BitVec 5) (ps : BitVec 4) (a1 a2 : BitVec 5) (lsel : Bool)
  | ald (g : Guard) (ad vn a2 : BitVec 5) (lsel : Bool) (imm : BitVec 14)
  | atsr (g : Guard) (pd : BitVec 4) (tsr : BitVec 3) (bit : BitVec 2)
  | lcset (g : Guard) (a2 : BitVec 5) (lsel : Bool) (st : BitVec 8)
  | pmov (g : Guard) (pd ps : BitVec 4) (neg : Bool)
  -- VA slot (R263)
  | vadd (g : Guard) (fmt : BitVec 3) (rnd : BitVec 2) (vd : BitVec 5) (s1 s2 : VSrc) (m : MSel)
  | vsub (g : Guard) (fmt : BitVec 3) (rnd : BitVec 2) (vd : BitVec 5) (s1 s2 : VSrc) (m : MSel)
  | vmul (g : Guard) (fmt : BitVec 3) (rnd : BitVec 2) (vd : BitVec 5) (s1 s2 : VSrc) (m : MSel)
  | vfma (g : Guard) (fmt : BitVec 3) (rnd : BitVec 2) (vd : BitVec 5) (s1 s2 s3 : VSrc) (m : MSel)
  | vmin (g : Guard) (fmt : BitVec 3) (rnd : BitVec 2) (vd : BitVec 5) (s1 s2 : VSrc) (m : MSel)
  | vmax (g : Guard) (fmt : BitVec 3) (rnd : BitVec 2) (vd : BitVec 5) (s1 s2 : VSrc) (m : MSel)
  | vexp2 (g : Guard) (fmt : BitVec 3) (rnd : BitVec 2) (vd : BitVec 5) (s1 : VSrc) (m : MSel)
  | vlog2 (g : Guard) (fmt : BitVec 3) (rnd : BitVec 2) (vd : BitVec 5) (s1 : VSrc) (m : MSel)
  | vrcp (g : Guard) (fmt : BitVec 3) (rnd : BitVec 2) (vd : BitVec 5) (s1 : VSrc) (m : MSel)
  | vrsq (g : Guard) (fmt : BitVec 3) (rnd : BitVec 2) (vd : BitVec 5) (s1 : VSrc) (m : MSel)
  | vcvt (g : Guard) (fmt cvt : BitVec 3) (rnd : BitVec 2) (vd : BitVec 5) (s1 : VSrc) (m : MSel)
  | viadd (g : Guard) (fmt : BitVec 3) (sat : Bool) (vd : BitVec 5) (s1 s2 : VSrc) (m : MSel)
  | visub (g : Guard) (fmt : BitVec 3) (sat : Bool) (vd : BitVec 5) (s1 s2 : VSrc) (m : MSel)
  | vimul (g : Guard) (fmt : BitVec 3) (sat : Bool) (vd : BitVec 5) (s1 s2 : VSrc) (m : MSel)
  | vshl (g : Guard) (fmt : BitVec 3) (sat : Bool) (vd : BitVec 5) (s1 s2 : VSrc) (m : MSel)
  | vshr (g : Guard) (fmt : BitVec 3) (vd : BitVec 5) (s1 s2 : VSrc) (m : MSel)
  | vand (g : Guard) (fmt : BitVec 3) (vd : BitVec 5) (s1 s2 : VSrc) (m : MSel)
  | vor (g : Guard) (fmt : BitVec 3) (vd : BitVec 5) (s1 s2 : VSrc) (m : MSel)
  | vxor (g : Guard) (fmt : BitVec 3) (vd : BitVec 5) (s1 s2 : VSrc) (m : MSel)
  -- VB slot (R264)
  | vmov (g : Guard) (fmt : BitVec 3) (vd : BitVec 5) (s1 : VSrc) (m : MSel)
  | vsel (g : Guard) (fmt : BitVec 3) (vd : BitVec 5) (s1 s3 : VSrc) (msk : BitVec 3)
  | vcmp (g : Guard) (cond : BitVec 4) (fmt : BitVec 3) (md : BitVec 3) (s1 s2 : VSrc) (m : MSel)
  | vrotr (g : Guard) (fmt : BitVec 3) (vd : BitVec 5) (s1 : VSrc) (n : BitVec 8) (m : MSel)
  | vrotc (g : Guard) (fmt : BitVec 3) (vd : BitVec 5) (s1 : VSrc) (n : BitVec 8) (m : MSel)
  | vbcr (g : Guard) (fmt : BitVec 3) (vd : BitVec 5) (s1 : VSrc) (n : BitVec 8) (m : MSel)
  | vbcc (g : Guard) (fmt : BitVec 3) (vd : BitVec 5) (s1 : VSrc) (n : BitVec 8) (m : MSel)
  | vredr (g : Guard) (op : BitVec 4) (fmt : BitVec 3) (vd : BitVec 5) (s1 : VSrc) (m : MSel)
  | vredc (g : Guard) (op : BitVec 4) (fmt : BitVec 3) (vd : BitVec 5) (s1 : VSrc) (m : MSel)
  | vscanr (g : Guard) (op : BitVec 4) (fmt : BitVec 3) (vd : BitVec 5) (s1 : VSrc) (m : MSel)
  | viota (g : Guard) (mode : BitVec 4) (fmt : BitVec 3) (vd : BitVec 5) (m : MSel)
  | vtopk (g : Guard) (fmt : BitVec 3) (vd : BitVec 5) (s1 s2 s3 : VSrc) (km1 : BitVec 8) (merge : Bool)
  | vtrn (g : Guard) (fmt : BitVec 3) (vd : BitVec 5) (s1 : VSrc) (inv : Bool)
  | vmask (g : Guard) (op : BitVec 4) (fmt : BitVec 3) (md : BitVec 3) (s1 s2 : VSrc)
  -- MX slot (R265)
  | mma (g : Guard) (fa fb : BitVec 4) (acc : BitVec 3) (oa ob : BitVec 5) (za zb : BitVec 4)
  | mzero (g : Guard) (acc : BitVec 3)
  | mdrain (g : Guard) (fmt : BitVec 3) (acc : BitVec 3) (v : BitVec 5)
  | mfill (g : Guard) (oa v : BitVec 5) (tr : Bool)
  | oclaim (g : Guard) (oa : BitVec 5)
  | orel (g : Guard) (oa : BitVec 5)
  | lend (g : Guard) (bank : BitVec 3)
  | recallBank (g : Guard) (bank : BitVec 3)
  -- UP, PK and SC slots (R266, R267)
  | unpk (g : Guard) (fmt : BitVec 3) (wide : BitVec 2) (vd : BitVec 5) (s1 : VSrc) (z : BitVec 4) (scl : Bool)
      (part : BitVec 3)
  | unpki (g : Guard) (fmt : BitVec 3) (wide : BitVec 2) (vd : BitVec 5) (s1 : VSrc) (part : BitVec 3)
  | pack (g : Guard) (fmt : BitVec 3) (wide : BitVec 2) (vd : BitVec 5) (s1 : VSrc) (z : BitVec 4) (scl : Bool)
      (part : BitVec 3)
  | packi (g : Guard) (fmt : BitVec 3) (wide : BitVec 2) (vd : BitVec 5) (s1 : VSrc) (part : BitVec 3)
  | pscale (g : Guard) (fmt : BitVec 3) (wide : BitVec 2) (s1 : VSrc) (z : BitVec 4) (part : BitVec 3)
  | scld (g : Guard) (zd : BitVec 4) (vs : BitVec 5) (row : BitVec 3)
  | scset (g : Guard) (zd : BitVec 4)
  -- SI and SO slots (R267)
  | srd (g : Guard) (vd : BitVec 5) (q : BitVec 3)
  | srdx (g : Guard) (vd ar : BitVec 5) (lsel : Bool)
  | swr (g : Guard) (s1 : VSrc) (q : BitVec 3)
  | swrx (g : Guard) (s1 : VSrc) (ar : BitVec 5) (lsel : Bool)
  | swra (g : Guard) (s1 : VSrc) (ar : BitVec 5) (lsel : Bool)
  | sfill (g : Guard) (s1 : VSrc) (q : BitVec 3)
  -- XS slot (R267, R413 to R420)
  | xperm (g : Guard) (vd : BitVec 5) (s1 : VSrc) (pat : BitVec 8)
  | xbcast (g : Guard) (vd : BitVec 5) (s1 : VSrc) (c : BitVec 3)
  | xred (g : Guard) (op : BitVec 4) (fmt : BitVec 3) (vd : BitVec 5) (s1 : VSrc)
  | xshift (g : Guard) (vd : BitVec 5) (s1 : VSrc) (sh : BitVec 4) (circ : Bool)
  | xget (g : Guard) (ad : BitVec 5) (s1 : VSrc) (c : BitVec 3)
  | xput (g : Guard) (vd as : BitVec 5) (bcast : Bool)
  -- CTL elements (R94, R291)
  | jmp (target : BitVec 12) (stall : BitVec 4)
  | brp (target : BitVec 12) (pred : BitVec 4) (stall : BitVec 4)
  | call (target : BitVec 12) (stall : BitVec 4)
  | ret (stall : BitVec 4)
  | kend (stall : BitVec 4)
  | loop (target : BitVec 12) (stall : BitVec 4)
  | loopPoll (target : BitVec 12) (stall : BitVec 4)
  | rep (l n : BitVec 6) (ia ib iacc : Bool) (stall : BitVec 4)
  -- Equinox instructions (R222)
  | qfetch (r : RArgs)
  | bfext (r : RArgs)
  | sigwait (r : RArgs)
  | dispatch (rd rs1 : BitVec 5)
  | qsave (r : RArgs)
  | qload (r : RArgs)
  -- queue packets (R226, R233)
  | launchPacket (ctx : CtxId) (qid : BitVec 12) (lrec rslt : W64)
  | ctxCreate (c : Cmd)
  | ctxDestroy (c : Cmd)
  | memMap (c : Cmd)
  | memUnmap (c : Cmd)
  | queueCreate (c : Cmd)
  | queueDestroy (c : Cmd)
  | zcoLoad (c : Cmd)
  | zcoUnload (c : Cmd)
  | regionRegister (c : Cmd)
  | regionRevoke (c : Cmd)
  | qpCreate (c : Cmd)
  | stateRead (c : Cmd)
  | preempt (c : Cmd)
  | jobStop (c : Cmd)
  | ctxSetreg (c : Cmd)
  | migrate (c : Cmd)
  | devSetreg (c : Cmd)
  | rmtSet (c : Cmd)
  -- device registers (R13, R71)
  | memsplitWrite (v : W32)
  | deviceRegisterWrite (r : DevReg) (v : W32)
  -- RoCEv2 (R152, R237)
  | rdmaWrite (q : RdmaReq) (data : List Byte)
  | rdmaRead (q : RdmaReq) (len : Nat)
  | send (qp : BitVec 14) (data : List Byte)
  | cas (q : RdmaReq) (cmp new : W64)
  | fetchAdd (q : RdmaReq) (addend : W64)
  | connectionManagementMad (peer : W64) (mtu : Nat)
  -- Sahat (R162)
  | read (h : SahatHdr)
  | pwr (h : SahatHdr) (data : List Byte)
  | npwr (h : SahatHdr) (data : List Byte)
  | fewr (h : SahatHdr) (data : List Byte)
  | atom (h : SahatHdr) (data : List Byte)
  | rdata (h : SahatHdr) (data : List Byte)
  | adata (h : SahatHdr) (data : List Byte)
  | ack (h : SahatHdr)
  | nak (h : SahatHdr)
  -- time-outs and periodic events
  | fabricTimeout (ssid : BitVec 16) (tag : BitVec 12)
  | overdue (st : StId) (k : Nat)
  | feTimeout (r : FeReader)
  | watchdogHang (ctx : CtxId)
  | forcedStop (gang : Nat)
  | saveTimeout (gang : Nat)
  | ageingInterval (die : DieId)
  | governorFreeze (sp : SpId)
  -- scheduling
  | dispatchDecision (die : DieId) (place : Placement)
  | gangRelease (gang : Nat)
  | split (donorDie : DieId) (donor : Fin 16) (thiefDie : DieId) (thief : Fin 16)
  | splitGrant (die : DieId) (walker : Fin 16)
  | poolDispatch (die : DieId)
  | walkerRestore (ctx : CtxId)
  | gangWriteBack (gang : Nat)
  | gangResume (gang : Nat) (die : DieId) (place : Placement)
  | repairComplete (gang : Nat)
  | hostPageIn (ctx : CtxId) (va : W64) (data : Option (List Byte))
  | storeFaultReplay (sp : SpId)
  | shootdownAck (u : TlbUnit)
  -- stream operations
  | copyStart (sp : SpId) (ch : ChId)
  | copyEnd (sp : SpId) (ch : ChId)
  | sfenceComplete (sp : SpId) (tag : TagId)
  | kloadStart (sp : SpId)
  | kloadComplete (sp : SpId)
  | kernelStart (sp : SpId)
  | kernelEnd (sp : SpId)
  | repReissue (sp : SpId)
  | completionWrite (launch : Nat)
  -- the Dealer
  | dealCount (die : DieId)
  | dealScatter (die : DieId)
  | dealPublish (die : DieId)
  | undealCombine (die : DieId)
  -- reset, reliability, power
  | reset
  | correctableError (l : ErrLoc)
  | uncorrectableError (l : ErrLoc)
  | scrub
  | spRetired (sp : SpId)
  | linkDegraded (st : StId) (lanes : BitVec 3)
  | eqxImemEcc (core : CoreId)
  | queueTableRestored (ctx : CtxId) (qid : BitVec 12) (copyB : Bool)
  | thermalEvent (die : DieId) (temp : Nat)
  | thermalRecovery (die : DieId) (temp : Nat)
  | thermalShutdown (die : DieId) (temp : Nat)
  | srfAbsent (k : Nat)
  | illegalInstruction (w : W64)
  | eqxIllegalInstruction (w : W32)
  deriving DecidableEq, Repr, Inhabited

end Sys2Proof
end

