-- ==== Sys2Proof/Config.lean ====
section
/-! DEFINITION. What an implementation fixes, and the free values: opaque constants with no body, so that no proof
can see what they are. State.tick selects a fresh one. -/

namespace Sys2Proof

/-- Who moves in a turn. `scp`, `kernel`, `eqx`: that unit takes its next step. `copy`: a running copy moves its next
segment (R82). `kload`: a running kload reads its next bundle (R305). `perform`: the queued weak store number `k` of the SP
is performed (R154). `grant`: an arbiter grants (R178). `held`: a request held at this target is tried again (R169).
`event`: an outside input or an event of the device, given whole. What Equinox does beside the instructions of its cores
(log 111): `serve`: a core acts on the oldest packet fetched from a queue (R227); `fwFetch`: it fetches a packet of the slot to be
served (R231); `fwMap`: it gives a queue a slot (R231); `fwFault`: it acts on the fault of a HOST page (R203, R238); `assign`: a
slot gets a core (R230). From outside: `interrupt`: the external interrupt of a core; `temperature`: a die's junction
temperature (R255); `rdmaOther`: a RoCEv2 opcode that the ports do not support (R237); `netAck`: the peer of a NET copy
answers its message, or does not accept it (R84). -/
inductive Actor where
  | scp (sp : SpId)
  | kernel (sp : SpId)
  | eqx (core : CoreId)
  | copy (sp : SpId) (ch : ChId)
  | kload (sp : SpId)
  | perform (sp : SpId) (k : Nat)
  | grant (st : StId)
  | held (k : Nat)
  | event (i : Instr)
  | serve (core : CoreId) (ctx : CtxId) (qid : BitVec 12)
  | fwFetch (core : CoreId)
  | fwMap (core : CoreId) (ctx : CtxId) (qid : BitVec 12)
  | fwFault (core : CoreId) (k : Nat)
  | assign (core : CoreId) (slot : Fin 64)
  | interrupt (core : CoreId) (on : Bool)
  | temperature (die : DieId) (temp : Nat)
  | rdmaOther (qp : BitVec 14)
  | netAck (sp : SpId) (ch : ChId) (ok : Bool)
  deriving DecidableEq, Repr, Inhabited

/-- A turn: who moves, and how many ns of device time have passed since the turn before it. -/
structure Turn where
  who : Actor
  dt  : Nat
  deriving DecidableEq, Repr, Inhabited

/-- FREE VALUE (log 2). The turn taken at tick `n` when the agenda is empty: the schedule and the outside inputs,
which the manual leaves open (R426, R427). -/
opaque Config.freeTurn : Nat → Turn

/-- FREE VALUE (log 3). One bit where the manual allows either of two outcomes: the neighbour vexp2 and vlog2 return
(R131), which own stores a UN load sees (R141), whether SRF data outlived a failed SP (R211), whether a packet on the
chip comes back overdue (R180). -/
opaque Config.freeBit : Nat → Nat → Bool

/-- FREE VALUE (log 3). A 64-bit value the manual leaves open. -/
opaque Config.freeWord : Nat → Nat → BitVec 64

/-- What stands at an address of the device registers (R12). -/
inductive DevPlace where
  | memsplit
  | reg (r : DevReg)
  | other
  deriving DecidableEq, Repr, Inhabited

/-- FREE VALUE (log 93). Where the device registers stand in 0x3000_0000_0000 to 0x3FFF_FFFF_FFFF is the implementation's (R12). -/
opaque Config.devRegAt : Nat → DevPlace

end Sys2Proof
end

