-- ==== Sys2Proof/WellFormed.lean ====
section
/-! DEFINITION. Well-formedness: which field values each instruction's encoding admits (R257 to R260 for the SCP,
R92, R94, R262 to R267 and the reference entries for the kernel slots). Steps that carry no encoding have no reserved
fields here; what they check of their data is part of their meaning. -/

namespace Sys2Proof

/-- R136: codes 6 and 7 are reserved. -/
def scopeOk (s : BitVec 3) : Bool := s.toNat < 6
/-- R259: condition codes 6 to 15 are reserved. -/
def condOk (c : BitVec 4) : Bool := c.toNat < 6
/-- R283: AMO codes 11 to 15 are reserved; SIZE is 2 or 3, fadd needs SIZE 2; C is 0 unless the code is cas. -/
def amoOk (m : MemMod) (code : BitVec 4) (c : SReg) : Bool :=
  scopeOk m.scope && decide (code.toNat < 11) && (m.size == 2 || m.size == 3)
    && (code != 10 || m.size == 2) && (code == 9 || c == 0)

/-- R260: the special registers sget reads. -/
def sgetOk (n : BitVec 12) : Bool :=
  decide (n.toNat ≤ 0x013) || (decide (0x020 ≤ n.toNat) && decide (n.toNat ≤ 0x02F))
    || (decide (0x040 ≤ n.toNat) && decide (n.toNat ≤ 0x05F))
/-- R260: the special registers sset writes. -/
def ssetOk (n : BitVec 12) : Bool := decide (0x008 ≤ n.toNat) && decide (n.toNat ≤ 0x010)

/-- R92: a source names a register, the held value, LIT or zero; H with the held value is reserved. -/
def VSrc.ok (s : VSrc) : Bool := decide (s.sel.toNat ≤ 34) && !(s.hold && s.sel == 32)
/-- A source field that an op does not use is 0 (R262). -/
def VSrc.isZero (s : VSrc) : Bool := !s.hold && s.sel == 0

/-- R394: the floating formats of the VA codes. -/
def fpFmt (f : BitVec 3) : Bool := decide (f.toNat < 3)
/-- R396: the integer formats of the VA codes. -/
def intFmt (f : BitVec 3) : Bool := decide (3 ≤ f.toNat) && decide (f.toNat ≤ 6)
/-- R111: any VA format. -/
def anyFmt (f : BitVec 3) : Bool := f != 7
/-- R392: elements of a row, 64 or 128. -/
def rowElems (f : BitVec 3) : Nat := if f == 0 || f == 3 || f == 5 then 64 else 128

/-- R127: the format pairs of mma. -/
def mmaPair (fa fb : BitVec 4) : Bool :=
  (fa == 6 && fb == 6)
  || (decide (2 ≤ fa.toNat) && decide (fa.toNat ≤ 5) && decide (2 ≤ fb.toNat) && decide (fb.toNat ≤ 5))
  || (decide (fa.toNat ≤ 1) && decide (fb.toNat ≤ 1))
  || (fa == 7 && fb == 7) || (fa == 8 && fb == 8)
/-- R120: the formats of mma that carry block scales. -/
def mmaScaled (f : BitVec 4) : Bool := decide (2 ≤ f.toNat) && decide (f.toNat ≤ 6)

/-- R339: the number of parts of a narrow register, Nn / Nw. -/
def partLimit (fmt : BitVec 3) (wide : BitVec 2) : Nat :=
  (if fmt == 4 then 8 else 4) / (if wide == 0 then 1 else 2)

/-- R266, R389: unpk and pack. -/
def packOk (fmt : BitVec 3) (wide : BitVec 2) (z : BitVec 4) (scl : Bool) (part : BitVec 3) : Bool :=
  decide (fmt.toNat ≤ 4) && decide (wide.toNat ≤ 2) && (scl || (fmt != 4 && z == 0))
    && decide (part.toNat < partLimit fmt wide)

/-- R406: add, max, min for any format; and, or, xor for the integer ones. -/
def redOk (op : BitVec 4) (fmt : BitVec 3) : Bool :=
  anyFmt fmt && (decide (op.toNat ≤ 2) || (decide (op.toNat ≤ 5) && intFmt fmt))

/-- R276: with LSEL = 1, A2 is 0. -/
def lselOk (a2 : BitVec 5) (lsel : Bool) : Bool := !lsel || a2 == 0

/-- The encodings that the manual defines. -/
def WellFormed : Instr → Bool
  | .fence o s => o != 0 && scopeOk s
  | .sget _ n => sgetOk n
  | .sset _ n => ssetOk n
  | .cmp c .. => condOk c
  | .bfx _ _ l w => decide (l.toNat + w.toNat + 1 ≤ 64)
  | .bfi _ _ l w => decide (l.toNat + w.toNat + 1 ≤ 64)
  | .b c .. => condOk c
  | .ldg m .. => scopeOk m.scope && (m.order == 0 || m.order == 1)
  | .ldf m .. => scopeOk m.scope && (m.order == 0 || m.order == 1)
  | .stg m .. => scopeOk m.scope && (m.order == 0 || m.order == 2)
  | .stf m .. => scopeOk m.scope && (m.order == 0 || m.order == 2)
  | .amog m code _ _ _ c => amoOk m code c
  | .amof m code _ _ _ c => amoOk m code c
  | .sfence m .. => m.chan == 0
  | .kload m .. => m.chan == 0
  | .krun m .. => m.chan == 0
  | .aadd _ _ _ a2 l => lselOk a2 l
  | .asub _ _ _ a2 l => lselOk a2 l
  | .amul _ _ _ a2 l => lselOk a2 l
  | .acmp _ c _ _ a2 l => decide (c.toNat < 6) && lselOk a2 l
  | .asel _ _ _ _ a2 l => lselOk a2 l
  | .ald _ _ _ a2 l _ => lselOk a2 l
  | .atsr _ _ t b => decide (t.toNat ≤ 5) && b != 3
  | .lcset _ a2 l s => lselOk a2 l && s != 0
  | .vadd _ f _ _ s1 s2 _ | .vsub _ f _ _ s1 s2 _ | .vmul _ f _ _ s1 s2 _ => fpFmt f && s1.ok && s2.ok
  | .vfma _ f _ _ s1 s2 s3 _ => fpFmt f && s1.ok && s2.ok && s3.ok
  | .vmin _ f r _ s1 s2 _ | .vmax _ f r _ s1 s2 _ => anyFmt f && (fpFmt f || r == 0) && s1.ok && s2.ok
  | .vexp2 _ f _ _ s _ | .vlog2 _ f _ _ s _ | .vrcp _ f _ _ s _ | .vrsq _ f _ _ s _ => fpFmt f && s.ok
  | .vcvt _ f c _ _ s _ => anyFmt f && anyFmt c && s.ok
  | .viadd _ f _ _ s1 s2 _ | .visub _ f _ _ s1 s2 _ | .vimul _ f _ _ s1 s2 _ | .vshl _ f _ _ s1 s2 _ =>
      intFmt f && s1.ok && s2.ok
  | .vshr _ f _ s1 s2 _ | .vand _ f _ s1 s2 _ | .vor _ f _ s1 s2 _ | .vxor _ f _ s1 s2 _ =>
      intFmt f && s1.ok && s2.ok
  | .vmov _ f _ s _ => anyFmt f && s.ok
  | .vsel _ f _ s1 s3 _ => anyFmt f && s1.ok && s3.ok
  | .vcmp _ c f _ s1 s2 _ => condOk c && anyFmt f && s1.ok && s2.ok
  | .vrotr _ f _ s n _ | .vbcr _ f _ s n _ => anyFmt f && s.ok && decide (n.toNat < rowElems f)
  | .vrotc _ f _ s n _ | .vbcc _ f _ s n _ => anyFmt f && s.ok && decide (n.toNat < 16)
  | .vredr _ o f _ s _ | .vredc _ o f _ s _ | .vscanr _ o f _ s _ => redOk o f && s.ok
  | .viota _ o f _ _ => decide (o.toNat ≤ 2) && intFmt f
  | .vtopk _ f vd s1 s2 s3 k mg =>
      (f == 0 || f == 3 || f == 5) && vd.toNat % 2 == 0 && decide (k.toNat ≤ 63)
        && (if mg then !s1.hold && decide (s1.sel.toNat < 32) && s1.sel.toNat % 2 == 0 && s2.ok && s3.ok
            else s1.ok && s2.isZero && s3.isZero)
  | .vtrn _ f _ s _ => anyFmt f && s.ok
  | .vmask _ o f _ s1 s2 =>
      anyFmt f && decide (o.toNat ≤ 6)
        && (if o == 6 then s1.ok && s2.isZero
            else if o == 5 then s1.isZero && s2.isZero
            else !s1.hold && decide (s1.sel.toNat < 8) && !s2.hold && decide (s2.sel.toNat < 8)
                  && (o != 4 || s2.sel == 0))
  | .mma _ fa fb acc _ _ za zb => mmaPair fa fb && decide (acc.toNat ≤ 5) && (mmaScaled fa || (za == 0 && zb == 0))
  | .mzero _ acc => decide (acc.toNat ≤ 5)
  | .mdrain _ f acc v => decide (f.toNat ≤ 4) && decide (acc.toNat ≤ 5) && v.toNat % 4 == 0
  | .lend _ b | .recallBank _ b => b == 3
  | .unpk _ f w _ s z c p | .pack _ f w _ s z c p => packOk f w z c p && s.ok
  | .unpki _ f w _ s p => f == 5 && decide (w.toNat ≤ 1) && s.ok && decide (p.toNat < (if w == 0 then 4 else 2))
  | .packi _ f w _ s p =>
      s.ok && ((f == 5 && decide (w.toNat ≤ 1) && decide (p.toNat < (if w == 0 then 4 else 2)))
               || (f == 0 && w == 0 && decide (p.toNat < 2)))
  | .pscale _ f w s z p => packOk f w z true p && s.ok
  | .srdx .. => true
  | .swr _ s _ | .swrx _ s _ _ | .swra _ s _ _ => s.ok
  | .sfill _ s _ => !s.hold && (s.sel == 33 || s.sel == 34)
  | .xperm _ _ s p => s.ok && ((p.toNat / 64 == 0 && p.toNat / 8 % 8 == 0) || (p.toNat / 64 == 1 && p.toNat / 32 % 2 == 0))
  | .xbcast _ _ s _ | .xget _ _ s _ => s.ok
  | .xred _ o f _ s => redOk o f && s.ok
  | .xshift _ _ s n _ => s.ok && n != 8
  | .rep l n _ _ _ _ => decide (l.toNat ≤ 32) && n != 0
  | .nop | .trap _ | .svc _ | .tfence | .ckpt _ | .susp | .tend | .wset .. | .gbar | .add .. | .sub .. | .mul ..
  | .mulh .. | .div .. | .rem .. | .and .. | .or .. | .xor .. | .shl .. | .shr .. | .sra .. | .min .. | .max ..
  | .csel .. | .addi .. | .li .. | .j _ | .jal .. | .jr _ | .scopy .. | .swait .. | .swaitWp .. | .launch .. | .trig
  | .twait _ | .twaitId .. | .deal .. | .undeal .. | .aaddi .. | .ali .. | .pmov .. | .mfill .. | .oclaim .. | .orel ..
  | .scld .. | .scset .. | .srd .. | .xput .. | .jmp .. | .brp .. | .call .. | .ret _ | .kend _ | .loop ..
  | .loopPoll .. | .qfetch _ | .bfext _ | .sigwait _ | .dispatch .. | .qsave _ | .qload _ | .launchPacket ..
  | .ctxCreate _ | .ctxDestroy _ | .memMap _ | .memUnmap _ | .queueCreate _ | .queueDestroy _ | .zcoLoad _
  | .zcoUnload _ | .regionRegister _ | .regionRevoke _ | .qpCreate _ | .stateRead _ | .preempt _ | .jobStop _
  | .ctxSetreg _ | .migrate _ | .devSetreg _ | .rmtSet _ | .memsplitWrite _ | .deviceRegisterWrite .. | .rdmaWrite ..
  | .rdmaRead .. | .send .. | .cas .. | .fetchAdd .. | .connectionManagementMad .. | .read _ | .pwr .. | .npwr ..
  | .fewr .. | .atom .. | .rdata .. | .adata .. | .ack _ | .nak _ | .fabricTimeout .. | .overdue .. | .feTimeout _
  | .watchdogHang _ | .forcedStop _ | .saveTimeout _ | .ageingInterval _ | .governorFreeze _ | .dispatchDecision ..
  | .gangRelease _ | .split .. | .splitGrant .. | .poolDispatch _ | .walkerRestore _ | .gangWriteBack _
  | .gangResume .. | .repairComplete _ | .hostPageIn .. | .storeFaultReplay _ | .shootdownAck _ | .copyStart ..
  | .copyEnd .. | .sfenceComplete .. | .kloadStart _ | .kloadComplete _ | .kernelStart _ | .kernelEnd _
  | .repReissue _ | .completionWrite _ | .dealCount _ | .dealScatter _ | .dealPublish _ | .undealCombine _ | .reset
  | .correctableError _ | .uncorrectableError _ | .scrub | .spRetired _ | .linkDegraded .. | .eqxImemEcc _
  | .queueTableRestored .. | .thermalEvent .. | .thermalRecovery .. | .thermalShutdown .. | .srfAbsent _
  | .illegalInstruction _ | .eqxIllegalInstruction _ => true

end Sys2Proof
end

