-- ==== Sys2Proof/Decode.lean ====
section
/-! DEFINITION. Decode and encode. One encoder per format, written from the field tables (R222, R256 to R268); a
decoder reads the fields, names the instruction its opcode gives, and accepts it only if it is well formed and its own
encoding is the word read. So every bit that the manual marks 0 must be 0 and no undefined encoding is taken for a
neighbour (R3, R257, R262). -/

namespace Sys2Proof

/-- Why a word is refused. -/
inductive DecodeError where
  /-- an opcode value that the map does not list (R261, R268, R223) -/
  | reservedOpcode
  /-- a field that must be 0, or a reserved value of a used field (R257, R262) -/
  | reservedField
  /-- a bundle rule: REP without mma, POLL without LOOP, LIT of a poll bundle (R94, R216) -/
  | bundleRule
  /-- an RV64IMAC word: not a row of the opcode table -/
  | baseIsa
  deriving DecidableEq, Repr, Inhabited

/-- One bit as a word. -/
def bit1 (b : Bool) : BitVec 1 := BitVec.ofBool b
/-- A field of a word: `n` bits from bit `lo`. -/
def fld {k : Nat} (w : BitVec k) (lo n : Nat) : BitVec n := w.extractLsb' lo n
/-- A one-bit field. -/
def flag {k : Nat} (w : BitVec k) (lo : Nat) : Bool := w.getLsbD lo

/-! ## SCP words (R256 to R261) -/

/-- The layout of R256. -/
def scpWord (op : BitVec 8) (d a b c : SReg) (mod : BitVec 12) (imm : BitVec 20) : W64 :=
  op ++ d ++ a ++ b ++ c ++ mod ++ imm

/-- MOD, memory layout (R258). -/
def MemMod.bits (m : MemMod) : BitVec 12 := m.size ++ m.order ++ m.scope ++ m.urg ++ 0#3
/-- MOD, stream layout (R258). -/
def StrMod.bits (m : StrMod) : BitVec 12 := m.chan ++ m.urg ++ m.tag ++ 0#1
/-- The memory fields of an SCP word. -/
def memModOf (w : W64) : MemMod := ⟨fld w 30 2, fld w 28 2, fld w 25 3, fld w 23 2⟩
/-- The stream fields of an SCP word. -/
def strModOf (w : W64) : StrMod := ⟨fld w 28 4, fld w 26 2, fld w 21 5⟩

/-- The words of the SCP instructions, by the format classes of R257 and the opcode map of R261. -/
def encodeScp : Instr → Option W64
  | .nop => some (scpWord 0x00 0 0 0 0 0 0)
  | .trap c => some (scpWord 0x01 0 0 0 0 0 c)
  | .svc c => some (scpWord 0x02 0 0 0 0 0 c)
  | .tfence => some (scpWord 0x03 0 0 0 0 0 0)
  | .fence o s => some (scpWord 0x04 0 0 0 0 (0#2 ++ o ++ s ++ 0#5) 0)
  | .ckpt c => some (scpWord 0x05 0 0 0 0 0 c)
  | .susp => some (scpWord 0x06 0 0 0 0 0 0)
  | .tend => some (scpWord 0x07 0 0 0 0 0 0)
  | .sget d n => some (scpWord 0x08 d 0 0 0 0 (0#8 ++ n))
  | .sset a n => some (scpWord 0x09 0 a 0 0 0 (0#8 ++ n))
  | .wset k a b => some (scpWord 0x0A 0 a b 0 0 (0#16 ++ k))
  | .gbar => some (scpWord 0x0B 0 0 0 0 0 0)
  | .add d a b => some (scpWord 0x10 d a b 0 0 0)
  | .sub d a b => some (scpWord 0x11 d a b 0 0 0)
  | .mul d a b => some (scpWord 0x12 d a b 0 0 0)
  | .mulh sg d a b => some (scpWord 0x13 d a b 0 (bit1 sg ++ 0#11) 0)
  | .div sg d a b => some (scpWord 0x14 d a b 0 (bit1 sg ++ 0#11) 0)
  | .rem sg d a b => some (scpWord 0x15 d a b 0 (bit1 sg ++ 0#11) 0)
  | .and d a b => some (scpWord 0x16 d a b 0 0 0)
  | .or d a b => some (scpWord 0x17 d a b 0 0 0)
  | .xor d a b => some (scpWord 0x18 d a b 0 0 0)
  | .shl d a b => some (scpWord 0x19 d a b 0 0 0)
  | .shr d a b => some (scpWord 0x1A d a b 0 0 0)
  | .sra d a b => some (scpWord 0x1B d a b 0 0 0)
  | .min sg d a b => some (scpWord 0x1C d a b 0 (bit1 sg ++ 0#11) 0)
  | .max sg d a b => some (scpWord 0x1D d a b 0 (bit1 sg ++ 0#11) 0)
  | .cmp k d a b => some (scpWord 0x1E d a b 0 (k ++ 0#8) 0)
  | .csel d a b c => some (scpWord 0x1F d a b c 0 0)
  | .addi d a i => some (scpWord 0x20 d a 0 0 0 i)
  | .li d i => some (0x21#8 ++ d ++ i)
  | .bfx d a l m => some (scpWord 0x22 d a 0 0 (l ++ m) 0)
  | .bfi d a l m => some (scpWord 0x23 d a 0 0 (l ++ m) 0)
  | .b k a b i => some (scpWord 0x30 0 a b 0 (k ++ 0#8) i)
  | .j i => some (scpWord 0x31 0 0 0 0 0 i)
  | .jal d i => some (scpWord 0x32 d 0 0 0 0 i)
  | .jr a => some (scpWord 0x33 0 a 0 0 0 0)
  | .ldg m d a i => some (scpWord 0x40 d a 0 0 m.bits i)
  | .ldf m d a i => some (scpWord 0x42 d a 0 0 m.bits i)
  | .stg m a b i => some (scpWord 0x41 0 a b 0 m.bits i)
  | .stf m a b i => some (scpWord 0x43 0 a b 0 m.bits i)
  | .amog m k d a b c => some (scpWord 0x44 d a b c m.bits (0#16 ++ k))
  | .amof m k d a b c => some (scpWord 0x45 d a b c m.bits (0#16 ++ k))
  | .scopy m t a b => some (scpWord 0x50 0 a b 0 m.bits (0#4 ++ t))
  | .sfence m t a => some (scpWord 0x51 0 a 0 0 m.bits (0#4 ++ t))
  | .swait m a b => some (scpWord 0x52 0 a b 0 m.bits 0)
  | .swaitWp m a b => some (scpWord 0x52 0 a b 0 m.bits 1)
  | .kload m k a b c => some (scpWord 0x53 0 a b c m.bits (0#8 ++ k))
  | .krun m e k a b => some (scpWord 0x54 0 a b 0 m.bits (0#7 ++ bit1 k ++ e))
  | .launch d a => some (scpWord 0x60 d a 0 0 0 0)
  | .trig => some (scpWord 0x61 0 0 0 0 0 0)
  | .twait d => some (scpWord 0x62 d 0 0 0 0 0)
  | .twaitId d a => some (scpWord 0x62 d a 0 0 (1#1 ++ 0#11) 0)
  | .deal d a => some (scpWord 0x70 d a 0 0 0 0)
  | .undeal d a => some (scpWord 0x71 d a 0 0 0 0)
  | _ => none

/-- The instruction that the opcode of a word names, its fields read off (R256, R261). -/
def scpCandidate (w : W64) : Option Instr :=
  let d : SReg := fld w 50 6
  let a : SReg := fld w 44 6
  let b : SReg := fld w 38 6
  let c : SReg := fld w 32 6
  let imm : BitVec 20 := fld w 0 20
  match (fld w 56 8 : BitVec 8).toNat with
  | 0x00 => some (.nop)
  | 0x01 => some (.trap (fld w 0 20))
  | 0x02 => some (.svc (fld w 0 20))
  | 0x03 => some (.tfence)
  | 0x04 => some (.fence (fld w 28 2) (fld w 25 3))
  | 0x05 => some (.ckpt (fld w 0 20))
  | 0x06 => some (.susp)
  | 0x07 => some (.tend)
  | 0x08 => some (.sget d (fld w 0 12))
  | 0x09 => some (.sset a (fld w 0 12))
  | 0x0A => some (.wset (fld w 0 4) a b)
  | 0x0B => some (.gbar)
  | 0x10 => some (.add d a b)
  | 0x11 => some (.sub d a b)
  | 0x12 => some (.mul d a b)
  | 0x13 => some (.mulh (flag w 31) d a b)
  | 0x14 => some (.div (flag w 31) d a b)
  | 0x15 => some (.rem (flag w 31) d a b)
  | 0x16 => some (.and d a b)
  | 0x17 => some (.or d a b)
  | 0x18 => some (.xor d a b)
  | 0x19 => some (.shl d a b)
  | 0x1A => some (.shr d a b)
  | 0x1B => some (.sra d a b)
  | 0x1C => some (.min (flag w 31) d a b)
  | 0x1D => some (.max (flag w 31) d a b)
  | 0x1E => some (.cmp (fld w 28 4) d a b)
  | 0x1F => some (.csel d a b c)
  | 0x20 => some (.addi d a imm)
  | 0x21 => some (.li d (fld w 0 50))
  | 0x22 => some (.bfx d a (fld w 26 6) (fld w 20 6))
  | 0x23 => some (.bfi d a (fld w 26 6) (fld w 20 6))
  | 0x30 => some (.b (fld w 28 4) a b imm)
  | 0x31 => some (.j imm)
  | 0x32 => some (.jal d imm)
  | 0x33 => some (.jr a)
  | 0x40 => some (.ldg (memModOf w) d a imm)
  | 0x42 => some (.ldf (memModOf w) d a imm)
  | 0x41 => some (.stg (memModOf w) a b imm)
  | 0x43 => some (.stf (memModOf w) a b imm)
  | 0x44 => some (.amog (memModOf w) (fld w 0 4) d a b c)
  | 0x45 => some (.amof (memModOf w) (fld w 0 4) d a b c)
  | 0x50 => some (.scopy (strModOf w) (fld w 0 16) a b)
  | 0x51 => some (.sfence (strModOf w) (fld w 0 16) a)
  | 0x52 => some (if flag w 0 then .swaitWp (strModOf w) a b else .swait (strModOf w) a b)
  | 0x53 => some (.kload (strModOf w) (fld w 0 12) a b c)
  | 0x54 => some (.krun (strModOf w) (fld w 0 12) (flag w 12) a b)
  | 0x60 => some (.launch d a)
  | 0x61 => some (.trig)
  | 0x62 => some (if flag w 31 then .twaitId d a else .twait d)
  | 0x70 => some (.deal d a)
  | 0x71 => some (.undeal d a)
  | _ => none

/-- Decoding an SCP word (R257, R261): total, every refusal named. -/
def decodeScp (w : W64) : Except DecodeError Instr :=
  match scpCandidate w with
  | none => .error .reservedOpcode
  | some i => if encodeScp i == some w && WellFormed i then .ok i else .error .reservedField

/-! ## Equinox words (R222, R223) -/

/-- The custom-0 layout (R222). -/
def eqxWord (rs2 rs1 : BitVec 5) (f3 : BitVec 3) (rd : BitVec 5) : W32 :=
  0#7 ++ rs2 ++ rs1 ++ f3 ++ rd ++ 0b0001011#7

/-- The words of the six custom instructions (R222). -/
def encodeEqx : Instr → Option W32
  | .qfetch r => some (eqxWord r.rs2 r.rs1 0 r.rd)
  | .bfext r => some (eqxWord r.rs2 r.rs1 1 r.rd)
  | .sigwait r => some (eqxWord r.rs2 r.rs1 2 r.rd)
  | .dispatch rd rs1 => some (eqxWord 0 rs1 3 rd)
  | .qsave r => some (eqxWord r.rs2 r.rs1 4 r.rd)
  | .qload r => some (eqxWord r.rs2 r.rs1 5 r.rd)
  | _ => none

/-- The custom instruction that funct3 names (R222). -/
def eqxCandidate (w : W32) : Option Instr :=
  let r : RArgs := ⟨fld w 7 5, fld w 15 5, fld w 20 5⟩
  match (fld w 12 3 : BitVec 3).toNat with
  | 0 => some (.qfetch r)
  | 1 => some (.bfext r)
  | 2 => some (.sigwait r)
  | 3 => some (.dispatch r.rd r.rs1)
  | 4 => some (.qsave r)
  | 5 => some (.qload r)
  | _ => none

/-- R223: the major opcodes custom-0 to custom-3, by bits [6:0] (custom-0 by R222; the other three PRESUMED from the
RISC-V base opcode map, log 6). -/
def eqxCustomOp (w : W32) : Bool :=
  let o : BitVec 7 := fld w 0 7
  o == 0b0001011 || o == 0b0101011 || o == 0b1011011 || o == 0b1111011

/-- Decoding an Equinox word: the custom instructions, an illegal custom word (R223), or a word of the base set. -/
def decodeEqx (w : W32) : Except DecodeError Instr :=
  if (fld w 0 7 : BitVec 7) == 0b0001011 then
    match eqxCandidate w with
    | none => .error .reservedOpcode
    | some i => if encodeEqx i == some w then .ok i else .error .reservedField
  else if eqxCustomOp w then .error .reservedOpcode
  else .error .baseIsa

/-! ## Bundle slots (R90, R262 to R267) -/

/-- A vector source as its 7 bits (R92). -/
def VSrc.bits (s : VSrc) : BitVec 7 := bit1 s.hold ++ s.sel
/-- The vector source at bit `lo` of a slot. -/
def srcAt {k : Nat} (w : BitVec k) (lo : Nat) : VSrc := ⟨flag w (lo + 6), fld w lo 6⟩

/-- VA (R263). -/
def vaWord (op : BitVec 6) (g : Guard) (fmt : BitVec 3) (rnd : BitVec 2) (vd : BitVec 5) (s1 s2 s3 : BitVec 7)
    (sat : Bool) (cvt : BitVec 3) (m : MSel) : BitVec 64 :=
  op ++ g ++ fmt ++ rnd ++ vd ++ s1 ++ s2 ++ s3 ++ bit1 sat ++ cvt ++ bit1 m.men ++ m.msk ++ 0#14
/-- VB (R264). -/
def vbWord (op : BitVec 6) (g : Guard) (fmt : BitVec 3) (vd : BitVec 5) (s1 s2 s3 : BitVec 7) (imm : BitVec 8)
    (mod : BitVec 4) (m : MSel) : BitVec 56 :=
  op ++ g ++ fmt ++ vd ++ s1 ++ s2 ++ s3 ++ imm ++ mod ++ bit1 m.men ++ m.msk
/-- MX (R265). -/
def mxWord (op : BitVec 6) (g : Guard) (fa fb : BitVec 4) (acc : BitVec 3) (oa ob : BitVec 5) (za zb : BitVec 4)
    (v : BitVec 5) (mod : BitVec 3) : BitVec 48 :=
  op ++ g ++ fa ++ fb ++ acc ++ oa ++ ob ++ za ++ zb ++ v ++ mod
/-- UP and PK (R266). -/
def upWord (op : BitVec 6) (g : Guard) (fmt : BitVec 3) (wide : BitVec 2) (vd : BitVec 5) (s1 : BitVec 7)
    (z : BitVec 4) (scl : Bool) (part : BitVec 3) : BitVec 40 :=
  op ++ g ++ fmt ++ wide ++ vd ++ s1 ++ z ++ bit1 scl ++ part ++ 0#4
/-- SC (R267). -/
def scWord (op : BitVec 6) (g : Guard) (zd : BitVec 4) (vs : BitVec 5) (row : BitVec 3) : BitVec 32 :=
  op ++ g ++ zd ++ vs ++ row ++ 0#9
/-- SI (R267). -/
def siWord (op : BitVec 6) (g : Guard) (vd : BitVec 5) (q : BitVec 3) (ar : BitVec 5) (l : Bool) : BitVec 40 :=
  op ++ g ++ vd ++ q ++ ar ++ bit1 l ++ 0#15
/-- SO (R267). -/
def soWord (op : BitVec 6) (g : Guard) (s1 : BitVec 7) (q : BitVec 3) (ar : BitVec 5) (l : Bool) : BitVec 40 :=
  op ++ g ++ s1 ++ q ++ ar ++ bit1 l ++ 0#13
/-- XS (R267). -/
def xsWord (op : BitVec 6) (g : Guard) (fmt : BitVec 3) (vd : BitVec 5) (s1 : BitVec 7) (pat : BitVec 8) :
    BitVec 40 :=
  op ++ g ++ fmt ++ vd ++ s1 ++ pat ++ 0#6
/-- SA (R267). -/
def saWord (op : BitVec 6) (g : Guard) (ad a1 a2 : BitVec 5) (l : Bool) (pd : BitVec 4) (cond : BitVec 3)
    (imm : BitVec 14) : BitVec 48 :=
  op ++ g ++ ad ++ a1 ++ a2 ++ bit1 l ++ pd ++ cond ++ imm
/-- CTL (R94). -/
def ctlWord (next : BitVec 4) (target : BitVec 12) (pred stall : BitVec 4) (poll : Bool) : BitVec 32 :=
  next ++ target ++ pred ++ stall ++ bit1 poll ++ 0#7

/-- The VA encodings. -/
def encodeVa : Instr → Option (BitVec 64)
  | .vadd g f r v s1 s2 m => some (vaWord 1 g f r v s1.bits s2.bits 0 false 0 m)
  | .vsub g f r v s1 s2 m => some (vaWord 2 g f r v s1.bits s2.bits 0 false 0 m)
  | .vmul g f r v s1 s2 m => some (vaWord 3 g f r v s1.bits s2.bits 0 false 0 m)
  | .vmin g f r v s1 s2 m => some (vaWord 5 g f r v s1.bits s2.bits 0 false 0 m)
  | .vmax g f r v s1 s2 m => some (vaWord 6 g f r v s1.bits s2.bits 0 false 0 m)
  | .vfma g f r v s1 s2 s3 m => some (vaWord 4 g f r v s1.bits s2.bits s3.bits false 0 m)
  | .vexp2 g f r v s1 m => some (vaWord 7 g f r v s1.bits 0 0 false 0 m)
  | .vlog2 g f r v s1 m => some (vaWord 8 g f r v s1.bits 0 0 false 0 m)
  | .vrcp g f r v s1 m => some (vaWord 9 g f r v s1.bits 0 0 false 0 m)
  | .vrsq g f r v s1 m => some (vaWord 10 g f r v s1.bits 0 0 false 0 m)
  | .vcvt g f c r v s1 m => some (vaWord 11 g f r v s1.bits 0 0 false c m)
  | .viadd g f t v s1 s2 m => some (vaWord 12 g f 0 v s1.bits s2.bits 0 t 0 m)
  | .visub g f t v s1 s2 m => some (vaWord 13 g f 0 v s1.bits s2.bits 0 t 0 m)
  | .vimul g f t v s1 s2 m => some (vaWord 14 g f 0 v s1.bits s2.bits 0 t 0 m)
  | .vshl g f t v s1 s2 m => some (vaWord 15 g f 0 v s1.bits s2.bits 0 t 0 m)
  | .vshr g f v s1 s2 m => some (vaWord 16 g f 0 v s1.bits s2.bits 0 false 0 m)
  | .vand g f v s1 s2 m => some (vaWord 17 g f 0 v s1.bits s2.bits 0 false 0 m)
  | .vor g f v s1 s2 m => some (vaWord 18 g f 0 v s1.bits s2.bits 0 false 0 m)
  | .vxor g f v s1 s2 m => some (vaWord 19 g f 0 v s1.bits s2.bits 0 false 0 m)
  | _ => none

/-- The instruction that the opcode of a VA field names. -/
def candidateVa (w : BitVec 64) : Option Instr :=
  match (fld w 58 6 : BitVec 6).toNat with
  | 1 => some (.vadd (fld w 53 5) (fld w 50 3) (fld w 48 2) (fld w 43 5) (srcAt w 36) (srcAt w 29) ⟨flag w 17, fld w 14 3⟩)
  | 2 => some (.vsub (fld w 53 5) (fld w 50 3) (fld w 48 2) (fld w 43 5) (srcAt w 36) (srcAt w 29) ⟨flag w 17, fld w 14 3⟩)
  | 3 => some (.vmul (fld w 53 5) (fld w 50 3) (fld w 48 2) (fld w 43 5) (srcAt w 36) (srcAt w 29) ⟨flag w 17, fld w 14 3⟩)
  | 5 => some (.vmin (fld w 53 5) (fld w 50 3) (fld w 48 2) (fld w 43 5) (srcAt w 36) (srcAt w 29) ⟨flag w 17, fld w 14 3⟩)
  | 6 => some (.vmax (fld w 53 5) (fld w 50 3) (fld w 48 2) (fld w 43 5) (srcAt w 36) (srcAt w 29) ⟨flag w 17, fld w 14 3⟩)
  | 4 => some (.vfma (fld w 53 5) (fld w 50 3) (fld w 48 2) (fld w 43 5) (srcAt w 36) (srcAt w 29) (srcAt w 22) ⟨flag w 17, fld w 14 3⟩)
  | 7 => some (.vexp2 (fld w 53 5) (fld w 50 3) (fld w 48 2) (fld w 43 5) (srcAt w 36) ⟨flag w 17, fld w 14 3⟩)
  | 8 => some (.vlog2 (fld w 53 5) (fld w 50 3) (fld w 48 2) (fld w 43 5) (srcAt w 36) ⟨flag w 17, fld w 14 3⟩)
  | 9 => some (.vrcp (fld w 53 5) (fld w 50 3) (fld w 48 2) (fld w 43 5) (srcAt w 36) ⟨flag w 17, fld w 14 3⟩)
  | 10 => some (.vrsq (fld w 53 5) (fld w 50 3) (fld w 48 2) (fld w 43 5) (srcAt w 36) ⟨flag w 17, fld w 14 3⟩)
  | 11 => some (.vcvt (fld w 53 5) (fld w 50 3) (fld w 18 3) (fld w 48 2) (fld w 43 5) (srcAt w 36) ⟨flag w 17, fld w 14 3⟩)
  | 12 => some (.viadd (fld w 53 5) (fld w 50 3) (flag w 21) (fld w 43 5) (srcAt w 36) (srcAt w 29) ⟨flag w 17, fld w 14 3⟩)
  | 13 => some (.visub (fld w 53 5) (fld w 50 3) (flag w 21) (fld w 43 5) (srcAt w 36) (srcAt w 29) ⟨flag w 17, fld w 14 3⟩)
  | 14 => some (.vimul (fld w 53 5) (fld w 50 3) (flag w 21) (fld w 43 5) (srcAt w 36) (srcAt w 29) ⟨flag w 17, fld w 14 3⟩)
  | 15 => some (.vshl (fld w 53 5) (fld w 50 3) (flag w 21) (fld w 43 5) (srcAt w 36) (srcAt w 29) ⟨flag w 17, fld w 14 3⟩)
  | 16 => some (.vshr (fld w 53 5) (fld w 50 3) (fld w 43 5) (srcAt w 36) (srcAt w 29) ⟨flag w 17, fld w 14 3⟩)
  | 17 => some (.vand (fld w 53 5) (fld w 50 3) (fld w 43 5) (srcAt w 36) (srcAt w 29) ⟨flag w 17, fld w 14 3⟩)
  | 18 => some (.vor (fld w 53 5) (fld w 50 3) (fld w 43 5) (srcAt w 36) (srcAt w 29) ⟨flag w 17, fld w 14 3⟩)
  | 19 => some (.vxor (fld w 53 5) (fld w 50 3) (fld w 43 5) (srcAt w 36) (srcAt w 29) ⟨flag w 17, fld w 14 3⟩)
  | _ => none

/-- The VB encodings. -/
def encodeVb : Instr → Option (BitVec 56)
  | .vmov g f v s1 m => some (vbWord 1 g f v s1.bits 0 0 0 0 m)
  | .vsel g f v s1 s3 k => some (vbWord 2 g f v s1.bits 0 s3.bits 0 0 ⟨true, k⟩)
  | .vcmp g c f d s1 s2 m => some (vbWord 3 g f (0#2 ++ d) s1.bits s2.bits 0 0 c m)
  | .vrotr g f v s1 n m => some (vbWord 4 g f v s1.bits 0 0 n 0 m)
  | .vrotc g f v s1 n m => some (vbWord 5 g f v s1.bits 0 0 n 0 m)
  | .vbcr g f v s1 n m => some (vbWord 6 g f v s1.bits 0 0 n 0 m)
  | .vbcc g f v s1 n m => some (vbWord 7 g f v s1.bits 0 0 n 0 m)
  | .vredr g o f v s1 m => some (vbWord 8 g f v s1.bits 0 0 0 o m)
  | .vredc g o f v s1 m => some (vbWord 9 g f v s1.bits 0 0 0 o m)
  | .vscanr g o f v s1 m => some (vbWord 10 g f v s1.bits 0 0 0 o m)
  | .viota g o f v m => some (vbWord 11 g f v 0 0 0 0 o m)
  | .vtopk g f v s1 s2 s3 k t => some (vbWord 12 g f v s1.bits s2.bits s3.bits k (0#3 ++ bit1 t) ⟨false, 0⟩)
  | .vtrn g f v s1 t => some (vbWord 13 g f v s1.bits 0 0 0 (0#3 ++ bit1 t) ⟨false, 0⟩)
  | .vmask g o f d s1 s2 => some (vbWord 14 g f (0#2 ++ d) s1.bits s2.bits 0 0 o ⟨false, 0⟩)
  | _ => none

/-- The instruction that the opcode of a VB field names. -/
def candidateVb (w : BitVec 56) : Option Instr :=
  match (fld w 50 6 : BitVec 6).toNat with
  | 1 => some (.vmov (fld w 45 5) (fld w 42 3) (fld w 37 5) (srcAt w 30) ⟨flag w 3, fld w 0 3⟩)
  | 2 => some (.vsel (fld w 45 5) (fld w 42 3) (fld w 37 5) (srcAt w 30) (srcAt w 16) (fld w 0 3))
  | 3 => some (.vcmp (fld w 45 5) (fld w 4 4) (fld w 42 3) (fld w 37 3) (srcAt w 30) (srcAt w 23) ⟨flag w 3, fld w 0 3⟩)
  | 4 => some (.vrotr (fld w 45 5) (fld w 42 3) (fld w 37 5) (srcAt w 30) (fld w 8 8) ⟨flag w 3, fld w 0 3⟩)
  | 5 => some (.vrotc (fld w 45 5) (fld w 42 3) (fld w 37 5) (srcAt w 30) (fld w 8 8) ⟨flag w 3, fld w 0 3⟩)
  | 6 => some (.vbcr (fld w 45 5) (fld w 42 3) (fld w 37 5) (srcAt w 30) (fld w 8 8) ⟨flag w 3, fld w 0 3⟩)
  | 7 => some (.vbcc (fld w 45 5) (fld w 42 3) (fld w 37 5) (srcAt w 30) (fld w 8 8) ⟨flag w 3, fld w 0 3⟩)
  | 8 => some (.vredr (fld w 45 5) (fld w 4 4) (fld w 42 3) (fld w 37 5) (srcAt w 30) ⟨flag w 3, fld w 0 3⟩)
  | 9 => some (.vredc (fld w 45 5) (fld w 4 4) (fld w 42 3) (fld w 37 5) (srcAt w 30) ⟨flag w 3, fld w 0 3⟩)
  | 10 => some (.vscanr (fld w 45 5) (fld w 4 4) (fld w 42 3) (fld w 37 5) (srcAt w 30) ⟨flag w 3, fld w 0 3⟩)
  | 11 => some (.viota (fld w 45 5) (fld w 4 4) (fld w 42 3) (fld w 37 5) ⟨flag w 3, fld w 0 3⟩)
  | 12 => some (.vtopk (fld w 45 5) (fld w 42 3) (fld w 37 5) (srcAt w 30) (srcAt w 23) (srcAt w 16) (fld w 8 8) (flag w 4))
  | 13 => some (.vtrn (fld w 45 5) (fld w 42 3) (fld w 37 5) (srcAt w 30) (flag w 4))
  | 14 => some (.vmask (fld w 45 5) (fld w 4 4) (fld w 42 3) (fld w 37 3) (srcAt w 30) (srcAt w 23))
  | _ => none

/-- The MX encodings. -/
def encodeMx : Instr → Option (BitVec 48)
  | .mma g fa fb c oa ob za zb => some (mxWord 1 g fa fb c oa ob za zb 0 0)
  | .mzero g c => some (mxWord 2 g 0 0 c 0 0 0 0 0 0)
  | .mdrain g f c v => some (mxWord 3 g 0 0 c 0 0 0 0 v f)
  | .mfill g o v t => some (mxWord 4 g 0 0 0 o 0 0 0 v (0#2 ++ bit1 t))
  | .oclaim g o => some (mxWord 5 g 0 0 0 o 0 0 0 0 0)
  | .orel g o => some (mxWord 6 g 0 0 0 o 0 0 0 0 0)
  | .lend g k => some (mxWord 7 g 0 0 0 0 0 0 0 0 k)
  | .recallBank g k => some (mxWord 8 g 0 0 0 0 0 0 0 0 k)
  | _ => none

/-- The instruction that the opcode of a MX field names. -/
def candidateMx (w : BitVec 48) : Option Instr :=
  match (fld w 42 6 : BitVec 6).toNat with
  | 1 => some (.mma (fld w 37 5) (fld w 33 4) (fld w 29 4) (fld w 26 3) (fld w 21 5) (fld w 16 5) (fld w 12 4) (fld w 8 4))
  | 2 => some (.mzero (fld w 37 5) (fld w 26 3))
  | 3 => some (.mdrain (fld w 37 5) (fld w 0 3) (fld w 26 3) (fld w 3 5))
  | 4 => some (.mfill (fld w 37 5) (fld w 21 5) (fld w 3 5) (flag w 0))
  | 5 => some (.oclaim (fld w 37 5) (fld w 21 5))
  | 6 => some (.orel (fld w 37 5) (fld w 21 5))
  | 7 => some (.lend (fld w 37 5) (fld w 0 3))
  | 8 => some (.recallBank (fld w 37 5) (fld w 0 3))
  | _ => none

/-- The UP encodings. -/
def encodeUp : Instr → Option (BitVec 40)
  | .unpk g f d v s1 z c p => some (upWord 1 g f d v s1.bits z c p)
  | .unpki g f d v s1 p => some (upWord 2 g f d v s1.bits 0 false p)
  | _ => none

/-- The instruction that the opcode of a UP field names. -/
def candidateUp (w : BitVec 40) : Option Instr :=
  match (fld w 34 6 : BitVec 6).toNat with
  | 1 => some (.unpk (fld w 29 5) (fld w 26 3) (fld w 24 2) (fld w 19 5) (srcAt w 12) (fld w 8 4) (flag w 7) (fld w 4 3))
  | 2 => some (.unpki (fld w 29 5) (fld w 26 3) (fld w 24 2) (fld w 19 5) (srcAt w 12) (fld w 4 3))
  | _ => none

/-- The PK encodings. -/
def encodePk : Instr → Option (BitVec 40)
  | .pack g f d v s1 z c p => some (upWord 1 g f d v s1.bits z c p)
  | .packi g f d v s1 p => some (upWord 2 g f d v s1.bits 0 false p)
  | .pscale g f d s1 z p => some (upWord 3 g f d 0 s1.bits z true p)
  | _ => none

/-- The instruction that the opcode of a PK field names. -/
def candidatePk (w : BitVec 40) : Option Instr :=
  match (fld w 34 6 : BitVec 6).toNat with
  | 1 => some (.pack (fld w 29 5) (fld w 26 3) (fld w 24 2) (fld w 19 5) (srcAt w 12) (fld w 8 4) (flag w 7) (fld w 4 3))
  | 2 => some (.packi (fld w 29 5) (fld w 26 3) (fld w 24 2) (fld w 19 5) (srcAt w 12) (fld w 4 3))
  | 3 => some (.pscale (fld w 29 5) (fld w 26 3) (fld w 24 2) (srcAt w 12) (fld w 8 4) (fld w 4 3))
  | _ => none

/-- The SC encodings. -/
def encodeSc : Instr → Option (BitVec 32)
  | .scld g z v r => some (scWord 1 g z v r)
  | .scset g z => some (scWord 2 g z 0 0)
  | _ => none

/-- The instruction that the opcode of a SC field names. -/
def candidateSc (w : BitVec 32) : Option Instr :=
  match (fld w 26 6 : BitVec 6).toNat with
  | 1 => some (.scld (fld w 21 5) (fld w 17 4) (fld w 12 5) (fld w 9 3))
  | 2 => some (.scset (fld w 21 5) (fld w 17 4))
  | _ => none

/-- The SI encodings. -/
def encodeSi : Instr → Option (BitVec 40)
  | .srd g v q => some (siWord 1 g v q 0 false)
  | .srdx g v a l => some (siWord 2 g v 0 a l)
  | _ => none

/-- The instruction that the opcode of a SI field names. -/
def candidateSi (w : BitVec 40) : Option Instr :=
  match (fld w 34 6 : BitVec 6).toNat with
  | 1 => some (.srd (fld w 29 5) (fld w 24 5) (fld w 21 3))
  | 2 => some (.srdx (fld w 29 5) (fld w 24 5) (fld w 16 5) (flag w 15))
  | _ => none

/-- The SO encodings. -/
def encodeSo : Instr → Option (BitVec 40)
  | .swr g s1 q => some (soWord 1 g s1.bits q 0 false)
  | .swrx g s1 a l => some (soWord 2 g s1.bits 0 a l)
  | .swra g s1 a l => some (soWord 3 g s1.bits 0 a l)
  | .sfill g s1 q => some (soWord 4 g s1.bits q 0 false)
  | _ => none

/-- The instruction that the opcode of a SO field names. -/
def candidateSo (w : BitVec 40) : Option Instr :=
  match (fld w 34 6 : BitVec 6).toNat with
  | 1 => some (.swr (fld w 29 5) (srcAt w 22) (fld w 19 3))
  | 2 => some (.swrx (fld w 29 5) (srcAt w 22) (fld w 14 5) (flag w 13))
  | 3 => some (.swra (fld w 29 5) (srcAt w 22) (fld w 14 5) (flag w 13))
  | 4 => some (.sfill (fld w 29 5) (srcAt w 22) (fld w 19 3))
  | _ => none

/-- The XS encodings. -/
def encodeXs : Instr → Option (BitVec 40)
  | .xperm g v s1 p => some (xsWord 1 g 0 v s1.bits p)
  | .xbcast g v s1 c => some (xsWord 2 g 0 v s1.bits (0#5 ++ c))
  | .xred g o f v s1 => some (xsWord 3 g f v s1.bits (0#4 ++ o))
  | .xshift g v s1 n c => some (xsWord 4 g 0 v s1.bits (0#3 ++ bit1 c ++ n))
  | .xget g a s1 c => some (xsWord 5 g 0 a s1.bits (0#5 ++ c))
  | .xput g v a c => some (xsWord 6 g 0 v (0#2 ++ a) (0#7 ++ bit1 c))
  | _ => none

/-- The instruction that the opcode of a XS field names. -/
def candidateXs (w : BitVec 40) : Option Instr :=
  match (fld w 34 6 : BitVec 6).toNat with
  | 1 => some (.xperm (fld w 29 5) (fld w 21 5) (srcAt w 14) (fld w 6 8))
  | 2 => some (.xbcast (fld w 29 5) (fld w 21 5) (srcAt w 14) (fld w 6 3))
  | 3 => some (.xred (fld w 29 5) (fld w 6 4) (fld w 26 3) (fld w 21 5) (srcAt w 14))
  | 4 => some (.xshift (fld w 29 5) (fld w 21 5) (srcAt w 14) (fld w 6 4) (flag w 10))
  | 5 => some (.xget (fld w 29 5) (fld w 21 5) (srcAt w 14) (fld w 6 3))
  | 6 => some (.xput (fld w 29 5) (fld w 21 5) (fld w 14 5) (flag w 6))
  | _ => none

/-- The SA encodings. -/
def encodeSa : Instr → Option (BitVec 48)
  | .aadd g d a b l => some (saWord 1 g d a b l 0 0 0)
  | .asub g d a b l => some (saWord 3 g d a b l 0 0 0)
  | .amul g d a b l => some (saWord 4 g d a b l 0 0 0)
  | .aaddi g d a i => some (saWord 2 g d a 0 false 0 0 i)
  | .ali g d => some (saWord 5 g d 0 0 true 0 0 0)
  | .acmp g c p a b l => some (saWord 6 g 0 a b l p c 0)
  | .asel g d p a b l => some (saWord 7 g d a b l p 0 0)
  | .ald g d v b l i => some (saWord 8 g d v b l 0 0 i)
  | .atsr g p t k => some (saWord 9 g 0 0 0 false p 0 (0#9 ++ k ++ t))
  | .lcset g b l s => some (saWord 10 g 0 0 b l 0 0 (0#6 ++ s))
  | .pmov g p q n => some (saWord 11 g 0 0 0 false p 0 (0#9 ++ bit1 n ++ q))
  | _ => none

/-- The instruction that the opcode of a SA field names. -/
def candidateSa (w : BitVec 48) : Option Instr :=
  match (fld w 42 6 : BitVec 6).toNat with
  | 1 => some (.aadd (fld w 37 5) (fld w 32 5) (fld w 27 5) (fld w 22 5) (flag w 21))
  | 3 => some (.asub (fld w 37 5) (fld w 32 5) (fld w 27 5) (fld w 22 5) (flag w 21))
  | 4 => some (.amul (fld w 37 5) (fld w 32 5) (fld w 27 5) (fld w 22 5) (flag w 21))
  | 2 => some (.aaddi (fld w 37 5) (fld w 32 5) (fld w 27 5) (fld w 0 14))
  | 5 => some (.ali (fld w 37 5) (fld w 32 5))
  | 6 => some (.acmp (fld w 37 5) (fld w 14 3) (fld w 17 4) (fld w 27 5) (fld w 22 5) (flag w 21))
  | 7 => some (.asel (fld w 37 5) (fld w 32 5) (fld w 17 4) (fld w 27 5) (fld w 22 5) (flag w 21))
  | 8 => some (.ald (fld w 37 5) (fld w 32 5) (fld w 27 5) (fld w 22 5) (flag w 21) (fld w 0 14))
  | 9 => some (.atsr (fld w 37 5) (fld w 17 4) (fld w 0 3) (fld w 3 2))
  | 10 => some (.lcset (fld w 37 5) (fld w 22 5) (flag w 21) (fld w 0 8))
  | 11 => some (.pmov (fld w 37 5) (fld w 17 4) (fld w 0 4) (flag w 4))
  | _ => none

/-- The CTL encodings. -/
def encodeCtl : Instr → Option (BitVec 32)
  | .jmp t s => some (ctlWord 1 t 0 s false)
  | .brp t p s => some (ctlWord 2 t p s false)
  | .loop t s => some (ctlWord 3 t 0 s false)
  | .loopPoll t s => some (ctlWord 3 t 0 s true)
  | .call t s => some (ctlWord 4 t 0 s false)
  | .ret s => some (ctlWord 5 0 0 s false)
  | .kend s => some (ctlWord 6 0 0 s false)
  | .rep l n a b c s => some (ctlWord 7 (l ++ n) (0#1 ++ bit1 c ++ bit1 b ++ bit1 a) s false)
  | _ => none

/-- The instruction that the opcode of a CTL field names. -/
def candidateCtl (w : BitVec 32) : Option Instr :=
  match (fld w 28 4 : BitVec 4).toNat with
  | 1 => some (.jmp (fld w 16 12) (fld w 8 4))
  | 2 => some (.brp (fld w 16 12) (fld w 12 4) (fld w 8 4))
  | 3 => some (if flag w 7 then .loopPoll (fld w 16 12) (fld w 8 4) else .loop (fld w 16 12) (fld w 8 4))
  | 4 => some (.call (fld w 16 12) (fld w 8 4))
  | 5 => some (.ret (fld w 8 4))
  | 6 => some (.kend (fld w 8 4))
  | 7 => some (.rep (fld w 22 6) (fld w 16 6) (flag w 12) (flag w 13) (flag w 14) (fld w 8 4))
  | _ => none

/-- A slot field of `n` bits: nothing where every bit is 0 (R262: opcode 0 with every bit 0 is a nop), else the
instruction, or a refusal. -/
def decodeSlot {n : Nat} (enc : Instr → Option (BitVec n)) (cand : BitVec n → Option Instr) (w : BitVec n) :
    Except DecodeError (Option Instr) :=
  if w = 0 then .ok none
  else match cand w with
    | none => .error .reservedOpcode
    | some i => if enc i == some w && WellFormed i then .ok (some i) else .error .reservedField

/-- The fields of a bundle in the order of R90. -/
structure BundleFields where
  ctl : BitVec 32
  va  : BitVec 64
  vb  : BitVec 56
  mx  : BitVec 48
  up  : BitVec 40
  pk  : BitVec 40
  sc  : BitVec 32
  si  : BitVec 40
  so  : BitVec 40
  xs  : BitVec 40
  sa  : BitVec 48
  lit : BitVec 32
  deriving DecidableEq, Repr

/-- R90, bits 511 down to 0. -/
def BundleFields.word (f : BundleFields) : BundleWord :=
  f.ctl ++ f.va ++ f.vb ++ f.mx ++ f.up ++ f.pk ++ f.sc ++ f.si ++ f.so ++ f.xs ++ f.sa ++ f.lit

/-- R90. -/
def bundleFields (w : BundleWord) : BundleFields :=
  ⟨fld w 480 32, fld w 416 64, fld w 360 56, fld w 312 48, fld w 272 40, fld w 232 40, fld w 200 32, fld w 160 40,
   fld w 120 40, fld w 80 40, fld w 32 48, fld w 0 32⟩

/-- The empty bundle (R335). -/
def BundleFields.zero : BundleFields := ⟨0, 0, 0, 0, 0, 0, 0, 0, 0, 0, 0, 0⟩

/-- A decoded bundle: the ops of its slots in the order of R90, its next-address element (none: SEQ), its stall count
and its literal. -/
structure Bundle where
  ops   : List Instr
  ctl   : Option Instr
  stall : BitVec 4
  lit   : W32
  deriving DecidableEq, Repr

/-- The bundle that holds one kernel op or CTL element alone, with the given literal (R272: a slot not named is nop). -/
def encodeKernel (lit : W32) (i : Instr) : Option BundleWord :=
  let z := { BundleFields.zero with lit := lit }
  match encodeVa i, encodeVb i, encodeMx i, encodeUp i, encodePk i, encodeSc i with
  | some x, _, _, _, _, _ => some { z with va := x }.word
  | _, some x, _, _, _, _ => some { z with vb := x }.word
  | _, _, some x, _, _, _ => some { z with mx := x }.word
  | _, _, _, some x, _, _ => some { z with up := x }.word
  | _, _, _, _, some x, _ => some { z with pk := x }.word
  | _, _, _, _, _, some x => some { z with sc := x }.word
  | _, _, _, _, _, _ =>
    match encodeSi i, encodeSo i, encodeXs i, encodeSa i, encodeCtl i with
    | some x, _, _, _, _ => some { z with si := x }.word
    | _, some x, _, _, _ => some { z with so := x }.word
    | _, _, some x, _, _ => some { z with xs := x }.word
    | _, _, _, some x, _ => some { z with sa := x }.word
    | _, _, _, _, some x => some { z with ctl := x }.word
    | _, _, _, _, _ => none

/-- The CTL field: NEXT = 0 is SEQ, whose TARGET, PRED, POLL and reserved bits are 0 (R94). -/
def decodeCtl (w : BitVec 32) : Except DecodeError (Option Instr) :=
  if (fld w 28 4 : BitVec 4) = 0 then
    if w = ctlWord 0 0 0 (fld w 8 4) false then .ok none else .error .reservedField
  else decodeSlot encodeCtl candidateCtl w

/-- A vector source that selects LIT (R92). -/
def VSrc.isLit (s : VSrc) : Bool := s.sel == 33

/-- R267: the uses of LIT. -/
def usesLit : Instr → Bool
  | .vadd _ _ _ _ s1 s2 _ | .vsub _ _ _ _ s1 s2 _ | .vmul _ _ _ _ s1 s2 _ | .vmin _ _ _ _ s1 s2 _
  | .vmax _ _ _ _ s1 s2 _ | .viadd _ _ _ _ s1 s2 _ | .visub _ _ _ _ s1 s2 _ | .vimul _ _ _ _ s1 s2 _
  | .vshl _ _ _ _ s1 s2 _ | .vcmp _ _ _ _ s1 s2 _ => s1.isLit || s2.isLit
  | .vshr _ _ _ s1 s2 _ | .vand _ _ _ s1 s2 _ | .vor _ _ _ s1 s2 _ | .vxor _ _ _ s1 s2 _ => s1.isLit || s2.isLit
  | .vfma _ _ _ _ s1 s2 s3 _ | .vtopk _ _ _ s1 s2 s3 _ _ => s1.isLit || s2.isLit || s3.isLit
  | .vexp2 _ _ _ _ s _ | .vlog2 _ _ _ _ s _ | .vrcp _ _ _ _ s _ | .vrsq _ _ _ _ s _ | .vcvt _ _ _ _ _ s _
  | .vredr _ _ _ _ s _ | .vredc _ _ _ _ s _ | .vscanr _ _ _ _ s _ => s.isLit
  | .vmov _ _ _ s _ | .vrotr _ _ _ s _ _ | .vrotc _ _ _ s _ _ | .vbcr _ _ _ s _ _ | .vbcc _ _ _ s _ _ => s.isLit
  | .vsel _ _ _ s1 s3 _ => s1.isLit || s3.isLit
  | .vtrn _ _ _ s _ => s.isLit
  | .vmask _ op _ _ s1 _ => op == 5 || (op == 6 && s1.isLit)
  | .unpk _ _ _ _ s _ _ _ | .pack _ _ _ _ s _ _ _ => s.isLit
  | .unpki _ _ _ _ s _ | .packi _ _ _ _ s _ | .pscale _ _ _ s _ _ => s.isLit
  | .swr _ s _ | .sfill _ s _ => s.isLit
  | .swrx _ s _ l | .swra _ s _ l => s.isLit || l
  | .srdx _ _ _ l => l
  | .xperm _ _ s _ | .xbcast _ _ s _ | .xget _ _ s _ => s.isLit
  | .xred _ _ _ _ s => s.isLit
  | .xshift _ _ s _ _ => s.isLit
  | .scset .. => true
  | .aadd _ _ _ _ l | .asub _ _ _ _ l | .amul _ _ _ _ l => l
  | .acmp _ _ _ _ _ l | .asel _ _ _ _ _ l | .ald _ _ _ _ l _ => l
  | .ali .. => true
  | .lcset _ _ l _ => l
  | _ => false

/-- Whether a slot op is an mma (R94, R102). -/
def isMma : Instr → Bool
  | .mma .. => true
  | _ => false

/-- R94, R216, R323: rules over the whole bundle. -/
def bundleRules (mx : Option Instr) (ops : List Instr) (ctl : Option Instr) (lit : W32) : Bool :=
  match ctl with
  | some (.rep ..) => match mx with
    | some i => isMma i
    | none => false
  | some (.loopPoll ..) => (fld lit 20 12 : BitVec 12) == 0 && ops.all (fun i => !usesLit i)
  | _ => true

/-- Decoding a bundle: what kload checks of it (R92, R94, R111, R127, R216, R262, R305). -/
def decodeBundle (w : BundleWord) : Except DecodeError Bundle := do
  let f := bundleFields w
  let va ← decodeSlot encodeVa candidateVa f.va
  let vb ← decodeSlot encodeVb candidateVb f.vb
  let mx ← decodeSlot encodeMx candidateMx f.mx
  let up ← decodeSlot encodeUp candidateUp f.up
  let pk ← decodeSlot encodePk candidatePk f.pk
  let sc ← decodeSlot encodeSc candidateSc f.sc
  let si ← decodeSlot encodeSi candidateSi f.si
  let so ← decodeSlot encodeSo candidateSo f.so
  let xs ← decodeSlot encodeXs candidateXs f.xs
  let sa ← decodeSlot encodeSa candidateSa f.sa
  let ctl ← decodeCtl f.ctl
  let ops := [va, vb, mx, up, pk, sc, si, so, xs, sa].filterMap id
  if bundleRules mx ops ctl f.lit then .ok ⟨ops, ctl, fld f.ctl 8 4, f.lit⟩ else .error .bundleRule

/-- R269: whether a bundle's TARGET is relative to its image. -/
def relTarget (w : BundleWord) : Bool :=
  let n : BitVec 4 := fld w 508 4
  n == 1 || n == 2 || n == 3 || n == 4

/-- R269: the bundle as kload writes it at an image loaded at `kbase`. -/
def relocate (kbase : BitVec 12) (w : BundleWord) : BundleWord :=
  if relTarget w then
    let t : BitVec 12 := fld w 496 12
    (fld w 508 4 : BitVec 4) ++ (t + kbase) ++ (fld w 0 496 : BitVec 496)
  else w

/-- R305: whether kload accepts a bundle of an image of `count` bundles (R269 for its relative TARGET). -/
def kloadOk (count : Nat) (w : BundleWord) : Bool :=
  (match decodeBundle w with | .ok _ => true | .error _ => false)
    && (!relTarget w || decide ((fld w 496 12 : BitVec 12).toNat < count))

/-- The words of an instruction. -/
inductive Encoded where
  | scp (w : W64)
  | kernel (w : BundleWord)
  | eqx (w : W32)
  deriving DecidableEq, Repr

/-- The encoding of an instruction that has one (the device's events have none). -/
def encode (i : Instr) : Option Encoded :=
  match encodeScp i with
  | some w => some (.scp w)
  | none => match encodeEqx i with
    | some w => some (.eqx w)
    | none => (encodeKernel 0 i).map .kernel

/-- The instruction that an encoded word holds; a bundle that holds one op or one CTL element alone. -/
def decode : Encoded → Option Instr
  | .scp w => (decodeScp w).toOption
  | .eqx w => (decodeEqx w).toOption
  | .kernel w => match decodeBundle w with
    | .ok ⟨[i], none, _, _⟩ => some i
    | .ok ⟨[], some i, _, _⟩ => some i
    | _ => none

/-- The decoder on a word as spec/opcode_table.json numbers its bits: 32 bits for an Equinox word, 64 for an SCP
instruction, 512 for a bundle. -/
def decodeTableWord (nbits w : Nat) : Option Instr :=
  if nbits ≤ 32 then decode (.eqx (BitVec.ofNat 32 w))
  else if nbits ≤ 64 then decode (.scp (BitVec.ofNat 64 w))
  else decode (.kernel (BitVec.ofNat 512 w))

end Sys2Proof
end

