-- ==== Sys2Proof/Machine/State.lean ====
section
/-! DEFINITION. The state of the device as plain data: every piece of state that the manual names, the two outcomes
besides a next state, and the machine right after reset. INVENTORY.md names the rule and the reset value of each. -/

namespace Sys2Proof.Machine

open Sys2Proof

/-- Why the machine stops with a fault. -/
inductive Fault where
  /-- Raised by `step` after a thermal shutdown: the module has powered down and only a reset acts (R255). Safe: the
  device does nothing either. -/
  | poweredDown
  deriving DecidableEq, Repr

/-- Why a step has no meaning. -/
inductive Refusal where
  /-- Raised by an arm of `exec` for a row whose meaning is not written yet. Safe: nothing can be proved of it. -/
  | notModelled (mnemonic : String)
  /-- Raised by a device event (a row that carries no encoding) when the state does not enable it. Safe: the event
  does not happen in such a state. -/
  | notEnabled (row : String)
  deriving DecidableEq, Repr

/-! ## The stream control processor -/

/-- A window register W0 to W15 (R74). -/
structure Window where
  tacc   : BitVec 11
  tsp    : BitVec 6
  valid  : Bool
  err    : Bool
  ecause : Cause
  key    : W32
  rbase  : BitVec 23
  allow  : BitVec 10
  outst  : BitVec 10
  deriving DecidableEq, Repr

/-- A window at strand entry: invalid, every field at its reset value (R35, R74). -/
def Window.init : Window := ⟨0, 0, false, false, 0, 0, 0, 64, 0⟩

/-- The SCP state that a full save carries (R32): registers, pc, writable special registers, windows. -/
structure ScpRegs where
  s         : Vector W64 64
  pc        : W64
  slk       : Vector (BitVec 12) 4
  trapPc    : W64
  trapCause : W64
  aflags    : BitVec 7
  afenable  : BitVec 7
  ttbase    : W64
  freezes   : BitVec 48
  win       : Vector Window 16
  deriving DecidableEq, Repr

/-- What a strand reads about itself (R23, R260): seat, gang size, task coordinates, launch ID and context. -/
structure StrandId where
  seat     : BitVec 4
  gangn    : BitVec 5
  x        : BitVec 16
  y        : BitVec 16
  z        : BitVec 16
  w        : BitVec 16
  launchId : W32
  ctx      : CtxId
  deriving DecidableEq, Repr

/-- The answer to a request: data, or a cause (R162, R170). -/
inductive Reply where
  | data (d : List Byte)
  | err (c : Cause)
  deriving DecidableEq, Repr

/-- The krun block (R306): scalar arguments, bindings (base, valid, length - 1) and extent. -/
structure KBind where
  base  : BitVec 23
  valid : Bool
  lm1   : BitVec 8
  deriving DecidableEq, Repr

structure KBlock where
  args   : Vector W32 8
  bind   : Vector KBind 8
  extent : BitVec 13
  deriving DecidableEq, Repr

/-- What the instruction at the pc of a strand waits for, with what it has got so far. -/
inductive Pend where
  /-- Nothing. -/
  | none
  /-- An empty line, since the given device time, for at most `limit` ns (R70, R236). -/
  | line (since limit : Nat)
  /-- The answer to the remote request with this tag (R162), after the bytes `got` of earlier packets of the access. -/
  | remote (tag : BitVec 12) (ans : Option Reply) (got : List Byte)
  /-- Equinox repairs the fault of this access (R198, R203). -/
  | repair (c : Cause) (va : W64)
  /-- susp: the strand has reached the suspension point and its stream ops complete (R379). -/
  | quiet
  /-- sfence: no named channel held an undelivered failure, and the op waits for its tag (R362). -/
  | fence
  /-- krun: the block has been read and checked, and the op waits for its tag (R85, R307). -/
  | krun (b : KBlock)
  /-- gbar: the strand has arrived and waits for the other seats (R302). -/
  | gbar
  /-- twait in its launch-ID form waits for this launch (R386). -/
  | launch (n : Nat)
  deriving DecidableEq, Repr

/-- Where a strand resumes and what is saved, by its suspension point (R31, R32): a ckpt keeps its table offset, a twait
in its launch-ID form the launch it waits for; `forced` is a forced stop or a migration (R210). -/
inductive SuspKind where
  | susp | ckpt (off : BitVec 20) | twait (id : Option Nat) | gbar | fault (c : Cause) | forced
  deriving DecidableEq, Repr

/-- What the SCP does (R24): no strand; loaded and awaiting its release step; issuing; parked; stopped at a suspension
point until its gang is written back; stopped for good by the failure of its task or by a job stop. -/
inductive RunState where
  | idle | formed | running | parked
  | stopped (k : SuspKind)
  | halted
  deriving DecidableEq, Repr

/-- A store that has been issued and not yet performed (R88, R154): its place, a physical address or, with `f`, an offset
in the SRF of an SP; whether its page is UN (R141), and what a record would hold. -/
structure WeakStore where
  f    : Option SpId
  pa   : Nat
  un   : Bool
  va   : W64
  data : W64
  size : BitVec 2
  seq  : W64
  deriving DecidableEq, Repr

/-- A record of the store-fault buffer (R155). -/
structure SfRecord where
  va    : W64
  data  : W64
  size  : BitVec 2
  cause : Cause
  seq   : W64
  deriving DecidableEq, Repr

/-- A strand's stores (R154, R155): the stores in flight, the fault records, the count of stores issued, that count at the
last fence (R149), and whether a delivery waits for Equinox. -/
structure Stores where
  weak      : List WeakStore
  records   : List SfRecord
  seq       : W64
  fence     : W64
  delivered : Bool
  deriving DecidableEq, Repr

/-! ## Stream operations -/

/-- A copy template (R81). -/
structure Template where
  kind    : BitVec 4
  esize   : BitVec 3
  slkc    : BitVec 2
  slkx    : Bool
  consume : Bool
  evt     : Bool
  slack   : BitVec 12
  cnt     : Vector (BitVec 16) 4
  sbase   : W64
  dbase   : W64
  sstr    : Vector W32 3
  dstr    : Vector W32 3
  idx     : BitVec 23
  qp      : BitVec 16
  resOk   : Bool
  deriving DecidableEq, Repr

/-- What a stream op does (R85); a copy keeps its template index, parameter and table base. -/
inductive StreamBody where
  | copy (ti : BitVec 16) (param : W32) (tb : W64) (ch : ChId) (evtag : BitVec 16)
  | kload (kbase : BitVec 12) (src : W64) (count : W64)
  | krun (entry : BitVec 12) (chk : Bool) (blk : KBlock)
  | sfence (copies : List Nat)
  deriving DecidableEq, Repr

/-- A recorded stream op: its number in issue order, its tag (an APERTURE copy has none), its wait mask, its urgency
class and the class's slack when it was issued (R176). -/
structure StreamOp where
  num   : Nat
  tag   : Option TagId
  wait  : W32
  urg   : BitVec 2
  slack : BitVec 12
  body  : StreamBody
  deriving DecidableEq, Repr

/-- One posted packet of a copy: where its bytes stand in loop order, how many, and its answer (R173). -/
structure CopyPkt where
  tag : BitVec 12
  off : Nat
  len : Nat
  ans : Option Reply
  deriving DecidableEq, Repr

/-- The RDMA message of a NET copy (R82, R84): not yet handed to the queue pair; handed over and not yet acknowledged by the
peer; acknowledged. -/
inductive NetMsg where
  | gathering | sent | acked
  deriving DecidableEq, Repr

/-- A running copy (R82 to R84): its op, its template once it has been read, the bytes written or sent in loop order, what
it waits for, its packets, the bytes of its RDMA message (NET) and how far that has come, and how it ends if it ends early; the
bytes of the row that it has read and not yet written (R137), the SADD adds not yet performed (offset, physical address, data;
R134), and the index list entry of a row. -/
structure CopyRun where
  op    : StreamOp
  t     : Option Template
  pos   : Nat
  pend  : Pend
  pkts  : List CopyPkt
  net   : List Byte
  msg   : NetMsg
  stop  : Option Cause
  ahead : List Byte
  adds  : List (Nat × Nat × List Byte)
  ent   : Option (Nat × Nat)
  deriving DecidableEq, Repr

/-- A copy channel (R84): its queue, its running copy, and the fields of CHWP. `und` is the undelivered failure of its
latest failed copies, oldest first, each with the number of its op (R361). -/
structure Channel where
  queue   : List StreamOp
  run     : Option CopyRun
  wp      : BitVec 48
  cause   : Cause
  err     : Bool
  part    : Bool
  und     : List (Nat × Cause)
  deriving DecidableEq, Repr

def Channel.init : Channel := ⟨[], none, 0, 0, false, false, []⟩

/-- A tag of the scoreboard (R85, R361): pending, and the undelivered cause it carries with the op it comes from. -/
structure TagState where
  pending : Bool
  cause   : Option (Nat × Cause)
  deriving DecidableEq, Repr

def TagState.init : TagState := ⟨false, none⟩

/-- A kload that completed since release (R33): source, first bundle, count. -/
structure KimLoad where
  src   : W64
  kbase : BitVec 12
  count : Nat
  deriving DecidableEq, Repr

/-- The stream side of an SP (R85, R87): scoreboard, channels, the kernel queue, the KIM queue with its running load
(next bundle) and what that waits for, the recorded sfences, the KIM map, and the count of ops issued. -/
structure Streams where
  tags  : Vector TagState 32
  chans : Vector Channel 16
  kq    : List StreamOp
  kimq  : List StreamOp
  kload : Option (StreamOp × Nat)
  kpend : Pend
  fences : List StreamOp
  kmap  : List KimLoad
  num   : Nat
  deriving DecidableEq, Repr

/-! ## The kernel engine -/

/-- State of an OPM slot (R103). -/
inductive OpmState where
  | free | owned | releasing
  deriving DecidableEq, Repr

/-- One cluster (R5, R92, R103, R105, R106). `a` holds a0 to a30 (entry 31 is not read: a31 reads the cluster index);
bit 0 of `p` is not read: p0 reads true. `hold` has one latch for each source position: VA 1 to 3, VB 1 to 3, UP, PK,
SO, XS. -/
structure KCluster where
  v      : Vector VReg 32
  acc    : Vector AccV 4
  opm    : Vector VReg 32
  opmSt  : Vector OpmState 32
  z      : Vector ZReg 16
  a      : Vector W32 32
  p      : BitVec 16
  m      : Vector MaskR 8
  q      : Vector (BitVec 23) 8
  kflags : BitVec 6
  tsr    : Vector (BitVec 3) 6
  hold   : Vector VReg 10
  deriving DecidableEq, Repr

/-- An mma in the multiplier in one cluster (R330, R331): formats, accumulator, slots, the scales read at issue, and the
operand parts read so far. -/
structure MmaRun where
  fa   : BitVec 4
  fb   : BitVec 4
  acc  : BitVec 3
  oa   : BitVec 5
  ob   : BitVec 5
  sa   : ZReg
  sb   : ZReg
  t0   : Nat
  capA : VReg
  capB : VReg
  deriving DecidableEq, Repr

/-- What lands (R96, R97). `vreg`, `zreg` and `maskReg` write `data` where `mask` has ones; `srf` writes a 4 KiB tile at
an SRF offset of an SP of the gang and sets its lines full. -/
inductive Landing where
  | vreg (r : Fin 32) (data mask : VReg)
  | areg (r : Fin 32) (v : W32)
  | pred (p : Fin 16) (v : Bool)
  | maskReg (m : Fin 8) (data mask : MaskR)
  | zreg (z : Fin 16) (data mask : ZReg)
  | opm (o : Fin 32) (v : VReg)
  | opmState (o : Fin 32) (st : OpmState)
  | mma (r : MmaRun)
  | accZero (acc : BitVec 3)
  | tsr (acc : BitVec 3) (bits : BitVec 3)
  | srf (sp : SpId) (f : Nat) (data : VReg)
  | lcset (n : W32) (st : BitVec 8)
  | lend (on : Bool)
  deriving DecidableEq, Repr

/-- A result in flight: its cluster, the step it lands on, the issue order. -/
structure InFlight where
  cl   : ClId
  land : Nat
  what : Landing
  deriving DecidableEq, Repr

/-- The repeat prefix in progress (R102): the mma of the prefix bundle, `k` issues made of `n`, the step of the next one,
the loop buffer's first bundle and length, the clusters whose guard was true. -/
structure RepRun where
  fa   : BitVec 4
  fb   : BitVec 4
  acc  : BitVec 3
  oa   : BitVec 5
  ob   : BitVec 5
  za   : BitVec 4
  zb   : BitVec 4
  ia   : Bool
  ib   : Bool
  iacc : Bool
  k    : Nat
  n    : Nat
  due  : Nat
  first : BitVec 12
  len  : Nat
  on   : BitVec 8
  deriving DecidableEq, Repr

/-- How far the running kernel has come: issuing; no further bundle issues and results land; stopped by a fault. -/
inductive KPhase where
  | issuing | ending | drained
  | faulted (c : Cause) (kpc : BitVec 12)
  deriving DecidableEq, Repr

/-- The running kernel (R306 to R308): its op, its block, the bundle issued last or next (`kpc`), the step it is due on,
its phase, since when an empty line holds it and for how long at most (R70, R107), and what a drain keeps: the iterations not
started, and the TARGET and LIT of its poll bundle (R215, R216). -/
structure KRun where
  op    : StreamOp
  entry : BitVec 12
  blk   : KBlock
  kpc   : BitVec 12
  due   : Nat
  phase : KPhase
  since : Option (Nat × Nat)
  nits  : Option (W32 × BitVec 12 × W32)
  deriving DecidableEq, Repr

/-- The kernel engine of an SP. An entry of the return stack is the bundle after a call (R353), which is 4,096 after the last
one. -/
structure KEngine where
  cl     : Vector KCluster 8
  nit    : W32
  nps    : BitVec 40
  nst    : BitVec 8
  rot    : BitVec 4
  chk    : Bool
  lent   : Bool
  rstack : List (BitVec 13)
  bind   : Vector KBind 8
  run    : Option KRun
  stepNo : Nat
  infl   : List InFlight
  mulFree : Nat
  drFree : Nat
  vbFree : Nat
  xsFree : Nat
  rep    : Option RepRun
  win    : List Nat
  lit    : W32
  deriving DecidableEq, Repr

/-- The kernel section of a save area (R213, R216). -/
structure KSave where
  op     : StreamOp
  entry  : BitVec 12
  blk    : KBlock
  kpc    : BitVec 12
  nits   : W32
  nst    : BitVec 8
  rot    : BitVec 4
  lent   : Bool
  rstack : List (BitVec 13)
  bind   : Vector KBind 8
  vmask  : W32
  amask  : BitVec 4
  omask  : W32
  cl     : Vector KCluster 8
  chk    : Bool
  deriving DecidableEq, Repr

/-! ## Translation -/

/-- A TLB entry (R204): context, page base and size, the PTE, and the RMT entry of a REMOTE page. -/
structure TlbEntry where
  ctx   : CtxId
  base  : Nat
  psize : Nat
  pte   : W64
  rmt   : Option (W64 × W64)
  deriving DecidableEq, Repr

/-! ## The stream processor -/

/-- A stream processor. `srf` lists the lines that differ from what an unlisted line reads as (zero), by line number
F offset div 128; `fe` holds one bit a line, full = 1. `alloc` is A in bytes (R22). `corr` holds the times of the
correctable errors of the last 24 hours (R246). -/
structure Sp where
  r       : ScpRegs
  id      : StrandId
  run     : RunState
  pend    : Pend
  gang    : Option Nat
  seatMap : List SpId
  sto     : Stores
  str     : Streams
  alloc   : Nat
  srf     : List (Nat × Line)
  fe      : BitVec 65536
  kim     : List (Nat × BundleWord)
  ke      : KEngine
  tlb     : List TlbEntry
  pwrlim  : W32
  retired : Bool
  govTotal : Nat
  corr    : List Nat
  deriving DecidableEq, Repr

/-! ## Gangs and launches -/

/-- The status of a strand's record (R26). -/
inductive StStatus where
  | new | running | suspended | blocked | faulted | parked | done | failed | lostAtSave
  deriving DecidableEq, Repr

/-- The checkpoint image (R207): the shadow, CKPC, CKOFF and the masks it was taken under. -/
structure Shadow where
  r      : ScpRegs
  smask  : W64
  wmask  : BitVec 16
  chans  : Vector Channel 16
  cnt    : W32
  ckpc   : W64
  ckoff  : BitVec 20
  deriving DecidableEq, Repr

/-- The sections of a save area (R213), as the device wrote them. -/
structure SaveArea where
  seq    : W64
  kind   : BitVec 8
  r      : ScpRegs
  chans  : Vector Channel 16
  tags   : Vector TagState 32
  ops    : List StreamOp
  cnt    : W32
  gen    : W32
  kmap   : List KimLoad
  recs   : List SfRecord
  stoSeq : W64
  srf    : List (Nat × Line)
  fe     : BitVec 65536
  ranges : List (Nat × Nat)
  kst    : Option KSave
  deriving DecidableEq, Repr

/-- One seat of a gang: its continuation record's fields (R26), its barrier count (R209), whether it has executed trig
(R385), its checkpoint image and save area, whether it is inside a NO_ROLLBACK region (R208), the launch
that a BLOCKED seat's twait names by ID, the address that a FAULTED seat's repair is for, and the KPC of a kernel fault's
report (R108). -/
structure Seat where
  sp     : Option SpId
  status : StStatus
  pc     : W64
  cause  : Cause
  rb     : Bool
  ckoff  : BitVec 20
  ckpc   : W64
  seq    : W64
  recAt  : W64
  save   : W64
  img    : W64
  cnt    : W32
  trig   : Bool
  image  : Option Shadow
  area   : Option SaveArea
  noRb   : Bool
  waits  : Option Nat
  fva    : W64
  kpc    : Option (BitVec 12)
  deriving DecidableEq, Repr

/-- A gang: the task it runs, its seats, its barrier generation, whether its next release is a resumption, and whether what was
saved of it stays readable after a hang stop (R220). -/
structure Gang where
  live   : Bool
  launch : Nat
  ctx    : CtxId
  die    : DieId
  tindex : W32
  x      : BitVec 16
  y      : BitVec 16
  z      : BitVec 16
  w      : BitVec 16
  args   : W64
  gen    : W32
  seats  : List Seat
  resume : Bool
  saveAt : Option Nat
  kept   : Bool
  deriving DecidableEq, Repr

/-- A launch record (R40). -/
structure LRec where
  kind   : BitVec 2
  order  : BitVec 2
  glog   : BitVec 3
  prio   : BitVec 3
  slkc   : BitVec 2
  idem   : Bool
  feinit : Bool
  npred  : BitVec 3
  nkim   : BitVec 3
  early  : BitVec 4
  x      : BitVec 16
  y      : BitVec 16
  z      : BitVec 16
  w      : BitVec 16
  ntask  : W32
  grain  : W32
  launchId : W32
  code   : W64
  entry  : W64
  args   : W64
  tasks  : W64
  csig   : W64
  cval   : W64
  seq    : W64
  pred   : Vector W32 4
  kim    : Vector W32 4
  srfb   : W32
  resOk  : Bool
  deriving DecidableEq, Repr

/-- The status of a task record (R53). -/
inductive TaskStatus where
  | waiting | ready | running | suspended | done | failed | poisoned
  deriving DecidableEq, Repr

/-- A task of a GRAPH launch as the device keeps it from dispatch on (R53, R55); the record in memory is written with
every change. -/
structure Task where
  dep    : W32
  status : TaskStatus
  cause  : Cause
  nsucc  : BitVec 8
  succ   : List Nat
  x      : BitVec 16
  y      : BitVec 16
  z      : BitVec 16
  w      : BitVec 16
  args   : W64
  trig   : Bool
  deriving DecidableEq, Repr

/-- How far a launch has come (R42, R58): accepted and not dispatched; running; done; failed with its first cause. -/
inductive LPhase where
  | accepted | running | done | failed
  deriving DecidableEq, Repr

/-- Where a launch waits until it is dispatched (R46, R63): in a user queue, if its queue is known, or in a pool. -/
inductive LSource where
  | queue (qid : Option (BitVec 12)) | pool (die : DieId)
  deriving DecidableEq, Repr

/-- An access that is not yet over (R165, R175, R194): its Sahat type with target, key and address, or type 0 and the
virtual address of a page that Equinox brings; how many bytes; and its answer. -/
structure DealAsk where
  typ  : BitVec 6
  acc  : BitVec 11
  key  : W32
  addr : Nat
  len  : Nat
  ans  : Option Reply
  deriving DecidableEq, Repr

/-- An accepted launch; its number is its place in `launches`, in order of acceptance. `binds` are its live
predecessors at acceptance: number and early-start (R42). `gone` says that it is no longer live; `wait` is the address
whose page the device waits for when it reads its task array or writes its completion (R58, R299); `pusher` is the gang and
seat of the strand that pushed it (R63), `memo` the reads of its task array that go to another accelerator (R165). -/
structure Launch where
  ctx    : CtxId
  r      : LRec
  depth  : Nat
  src    : LSource
  parent : Option Nat
  pusher : Option (Nat × Nat)
  phase  : LPhase
  cause  : Cause
  binds  : List (Nat × Bool)
  tasks  : List Task
  order  : Nat
  doneTiles : Nat
  badTask : Bool
  trigTiles : Nat
  lastDisp : Nat
  lastDie : DieId
  gone   : Bool
  stopped : Bool
  wait   : Option W64
  memo   : List DealAsk
  deriving DecidableEq, Repr

/-- A walker (R49): one range of one launch. -/
inductive Walker where
  | free | reserved
  | active (launch next stop : Nat)
  | frozen (launch next stop : Nat)
  deriving DecidableEq, Repr

/-- Captured walker state (R52). -/
structure WalkerSave where
  launch : Nat
  next   : Nat
  stop   : Nat
  wnum   : Nat
  die    : DieId
  deriving DecidableEq, Repr

/-- A split granted by a donor and not yet loaded at the thief's reserved walker (R50, R52). -/
structure SplitGrant where
  die    : DieId
  walker : Fin 16
  range  : Option (Nat × Nat × Nat)
  deriving DecidableEq, Repr

/-! ## The Dealer -/

/-- The Deal descriptor (R184). -/
structure DealDesc where
  t      : BitVec 24
  k      : BitVec 4
  ufmt   : Bool
  e      : BitVec 13
  slkc   : BitVec 2
  slkx   : Bool
  slack  : BitVec 12
  rowb   : W32
  dcap   : W32
  rows   : W64
  sstr   : W32
  ostr   : W32
  choice : W64
  emap   : W64
  counts : W64
  drops  : W64
  inv    : W64
  out    : W64
  dsig   : W64
  seq    : W64
  resOk  : Bool
  deriving DecidableEq, Repr

/-- An accepted Deal operation with its slack (R182) and its number in order of acceptance (R194). A `cancelled` one is not
performed: its Dealer writes its completion block (R194). -/
structure DealOp where
  ctx    : CtxId
  launch : Option Nat
  undeal : Bool
  d      : DealDesc
  slack  : BitVec 12
  num    : Nat
  cancelled : Bool
  deriving DecidableEq, Repr

/-- An expert-map entry as read in Count (R186). -/
structure EMapEnt where
  acc    : BitVec 11
  valid  : Bool
  key    : W32
  base   : W64
  cap    : W32
  rstr   : W32
  cnt    : W64
  resOk  : Bool
  deriving DecidableEq, Repr

/-- What the Dealer knows of an expert: its map entry, WANT, its base once answered, rows placed, and the drop it has
met (R187 to R190). -/
structure Expert where
  ent    : EMapEnt
  want   : Nat
  base   : Option W64
  placed : Nat
  bad    : Option (BitVec 4 × Cause)
  deriving DecidableEq, Repr

/-- The outcome of one choice (R187 to R192): counted; its packets sent and this many not yet acknowledged, with reason and
cause of the first that was refused; placed in a slot; or dropped with reason and cause. -/
inductive DealOut where
  | counted (pos : Nat)
  | sent (slot : Nat) (left : Nat) (bad : Option (BitVec 4 × Cause))
  | placed (slot : Nat)
  | dropped (reason : BitVec 4) (cause : Cause)
  deriving DecidableEq, Repr

structure DealChoice where
  expert : BitVec 16
  gate   : BitVec 16
  out    : DealOut
  deriving DecidableEq, Repr

/-- How far an operation has come (R187 to R191, R196). Publish is cut into its parts: count entries, drop records, DONE
adds, completion block. -/
inductive DealPhase where
  | count | reserve | scatter | counts | drops | adds | block | gather
  deriving DecidableEq, Repr

/-- The operation a Dealer performs: `next` is the expert, choice, entry or token whose turn it is, `inv` the choices whose
outcome is final and whose INV entries are still to be written (R193). -/
structure DealRun where
  op      : DealOp
  phase   : DealPhase
  experts : List Expert
  choices : List DealChoice
  next    : Nat
  inv     : List Nat
  waitRes : Nat
  pubs    : Nat
  cause   : Cause
  failed  : Bool
  incomplete : Bool
  deriving DecidableEq, Repr

/-- A Dealer (R182, R183): its queue, its operation, and the accesses of its present step. -/
structure Dealer where
  queue : List DealOp
  run   : Option DealRun
  memo  : List DealAsk
  deriving DecidableEq, Repr

/-! ## The die -/

/-- A ready task (R47): launch number and task index. -/
structure ReadyTask where
  launch : Nat
  idx    : Nat
  deriving DecidableEq, Repr

/-- A candidate of a die's dispatcher (R59): a resumable gang, a ready task, the walker of a launch. -/
inductive DispCand where
  | gang (g : Nat)
  | task (launch idx : Nat)
  | walker (i : Fin 16) (launch : Nat)
  deriving DecidableEq, Repr

/-- A split that a thief has requested and its donor has not yet performed (R50). -/
structure SplitReq where
  donorDie : DieId
  donor    : Fin 16
  die      : DieId
  walker   : Fin 16
  deriving DecidableEq, Repr

/-- A die: walkers (R49), pending-launch pool (R63), ready queue (R47), Dealer, L2 TLB, DISPAGE, FETIME, whether it is
above its thermal limit and its temperature (R255), and the candidate its free SPs are held for (R59). -/
structure Die where
  walkers : Vector Walker 16
  pool    : List Nat
  ready   : List ReadyTask
  dealer  : Dealer
  l2      : List TlbEntry
  dispage : W32
  fetime  : W32
  hot     : Bool
  temp    : Nat
  keep    : Option DispCand
  deriving DecidableEq, Repr

/-! ## Equinox -/

/-- A core's part (R18, R238). -/
inductive CoreStatus where
  | active | spare | fenced
  deriving DecidableEq, Repr

/-- A work record of a core's log (R238): what it acts on, whether it is marked done, and where its 64 bytes stand. -/
structure WorkRec where
  what : Cmd
  code : BitVec 16
  done : Bool
  addr : W64
  deriving DecidableEq, Repr

/-- An Equinox core (R222, R238): RV64 registers (x0 is not read), pc, the machine-mode registers of the base set (`mie`
and `mpie` are bits of mstatus, `ie` is the register mie, `irq` the pending external interrupt, `instret` counts retired
instructions; log 6), the launch whose dispatch it has begun (R299), its instruction memory and its log. -/
structure Core where
  x       : Vector W64 32
  pc      : W64
  mepc    : W64
  mcause  : W64
  mtval   : W64
  mtvec   : W64
  mscratch : W64
  ie      : W64
  instret : W64
  mie     : Bool
  mpie    : Bool
  irq     : Bool
  disp    : Option Nat
  imem    : List Host.Cell
  status  : CoreStatus
  log     : List WorkRec
  deriving DecidableEq, Repr

/-- A load reservation of a core (log 6): which bytes. -/
structure Resv where
  core : CoreId
  addr : Nat
  size : Nat
  deriving DecidableEq, Repr

/-- The state of a queue (R229). -/
inductive QState where
  | free | mapped | active | errored
  deriving DecidableEq, Repr

/-- A queue's control block (R229). -/
structure Qcb where
  ring    : BitVec 56
  log2n   : BitVec 5
  prio    : BitVec 3
  eprio   : BitVec 3
  qid     : BitVec 12
  ctx     : CtxId
  state   : QState
  head    : W32
  prod    : W32
  svctime : W64
  held    : W64
  qseq    : W64
  deriving DecidableEq, Repr

def Qcb.init : Qcb := ⟨0, 0, 0, 0, 0, 0, .free, 0, 0, 0, 0, 0⟩

/-- A hardware queue slot (R229) with its count of mismatching fetches (R227, R346). -/
structure Slot where
  q     : Qcb
  retry : Nat
  deriving DecidableEq, Repr

/-- A queue of a context (R225): the two copies of its QCB in the queue tables with their ECC state (R239), and its
expected packet number. -/
structure UserQueue where
  qid  : BitVec 12
  a    : Qcb
  b    : Qcb
  aBad : Bool
  bBad : Bool
  served : W32
  deriving DecidableEq, Repr

/-- The copy of the queue tables that holds (R239): the valid one with the higher QSEQ; none when both hold an error. -/
def UserQueue.live (u : UserQueue) : Option Qcb :=
  if u.aBad && u.bBad then none
  else if u.aBad then some u.b
  else if u.bBad then some u.a
  else if u.a.qseq.toNat < u.b.qseq.toNat then some u.b
  else some u.a

/-- A copy of a context's pending array and kick filter (R228, R239): the filter's base address, its update sequence
number, and whether it holds an uncorrectable error. -/
structure KickTable where
  kick    : W64
  pending : BitVec 4096
  seq     : W64
  bad     : Bool
  deriving DecidableEq, Repr

def KickTable.init : KickTable := ⟨0, 0, 0, false⟩

/-- A section of a loaded code object (R240, R429). -/
inductive SecKind where
  | text | zkim | zlive | ztmpl | zlaunch | data | bss
  deriving DecidableEq, Repr

structure Section where
  kind : SecKind
  addr : W64
  size : Nat
  deriving DecidableEq, Repr

/-- A global symbol of a loaded object (R242): the digest of its name is its bytes. -/
structure Symbol where
  name  : List Byte
  weak  : Bool
  value : W64
  deriving DecidableEq, Repr

structure CodeObj where
  handle : W64
  secs   : List Section
  syms   : List Symbol
  images : List (Nat × Nat)
  deriving DecidableEq, Repr

/-- A kind of command that ends later than it begins (R233): the shootdown it waits for, the revoked key, the
pre-empted context, the page of its operand that Equinox brings (R203), a queue whose slot is still ACTIVE (R230), a context
whose queues and Deal operations still end (R194, R230). -/
inductive CmdWait where
  | slotIdle (ctx : CtxId) (qid : BitVec 12)
  | ctxIdle (ctx : CtxId)
  | page (ctx : CtxId) (va : W64)
  | shootdown (n : Nat)
  | revoke (key : W32)
  | preempt (ctx : CtxId)
  deriving DecidableEq, Repr

/-- A packet whose end is still to come: a command by its code, or, with code 0, a LAUNCH packet (its record's address is
ARG0); `val` is the VALUE it ends with. -/
structure PendingCmd where
  cmd  : Cmd
  code : BitVec 16
  wait : CmdWait
  val  : Nat
  deriving DecidableEq, Repr

/-- A pre-emption request of a context (R210): when it was made, and whether it has become a forced stop. -/
structure PreemptReq where
  since  : Nat
  forced : Bool
  deriving DecidableEq, Repr

/-- A context (R224). `saved`, `savedOps` and `savedPool` are what a pre-emption captured (R52, R194), and `rebuild` says that
its ready queues are to be rebuilt; `kept` holds the captured walkers of launches that a hang has stopped, which stay readable
(R220); `devUsed` lists the blocks of its device area in use (R428). -/
structure Ctx where
  alive   : Bool
  ptbase  : W64
  rmtbase : W64
  slkDef  : Vector (BitVec 12) 4
  slkctl  : W32
  slkcnt  : BitVec 48
  ctxwd   : W64
  ordmode : W32
  tabA    : KickTable
  tabB    : KickTable
  queues  : List UserQueue
  codes   : List CodeObj
  nextHandle : W64
  progress : Nat
  preempt : Option PreemptReq
  saved   : List WalkerSave
  savedOps : List (DieId × DealOp)
  savedPool : List (DieId × Nat)
  rebuild : Bool
  kept    : List WalkerSave
  devUsed : List (Nat × Nat)
  deriving DecidableEq, Repr

/-- The pending array and kick filter that hold (R239). -/
def Ctx.table (c : Ctx) : KickTable :=
  if c.tabA.bad then c.tabB
  else if c.tabB.bad then c.tabA
  else if c.tabA.seq.toNat < c.tabB.seq.toNat then c.tabB
  else c.tabA
def Ctx.kick (c : Ctx) : W64 := c.table.kick
def Ctx.pending (c : Ctx) : BitVec 4096 := c.table.pending

/-- An update of the pending array writes copy A, then copy B (R239). -/
def Ctx.setPending (c : Ctx) (v : BitVec 4096) : Ctx :=
  let t := c.table
  let put (b : Bool) : KickTable := { t with pending := v, seq := t.seq + 1, bad := b }
  { c with tabA := put c.tabA.bad, tabB := put c.tabB.bad }

/-! ## Fabric, host and reliability -/

/-- A region-table entry (R167); `freed` says that its region has been revoked and its index may be registered again. -/
structure Region where
  valid  : Bool
  freed  : Bool
  srf    : Bool
  rd     : Bool
  wr     : Bool
  atom   : Bool
  gen    : BitVec 12
  ctx    : CtxId
  base   : BitVec 56
  lenb   : BitVec 56
  glaunch : W32
  gtask  : W32
  deriving DecidableEq, Repr

/-- Who made a request and what its answer is for (R165, R170, R175); a window's write names the krun tag of the kernel that
made it, until the strand has awaited that tag (R144); `gone` when its strand has left the SP. -/
inductive Issuer where
  | scp (sp : SpId)
  | weak (sp : SpId) (rec : SfRecord)
  | window (sp : SpId) (k : Fin 16) (kern : Option TagId)
  | copy (sp : SpId) (ch : ChId)
  | kload (sp : SpId)
  | reserve (die : DieId) (expert : Nat)
  | scatter (die : DieId) (choice : Nat)
  | doneAdd (die : DieId) (expert : Nat)
  | dealer (die : DieId)
  | completion (launch : Nat)
  | engine (die : DieId)
  | engineRead (launch : Nat)
  | result (qid : BitVec 12)
  | gone
  deriving DecidableEq, Repr

/-- An open transaction (R166): its request header, its station, when it was sent, its time limit in ns. -/
structure Txn where
  h     : SahatHdr
  st    : StId
  sent  : Nat
  limit : Nat
  who   : Issuer
  ctx   : CtxId
  deriving DecidableEq, Repr

/-- A packet that waits at a station's arbiter or has been granted (R161, R178). -/
structure Packet where
  h     : SahatHdr
  data  : List Byte
  input : Nat
  since : Nat
  deriving DecidableEq, Repr

/-- The arbiter of a station (R178): waiting packets in order of arrival, round-robin pointer, overdue round. -/
structure Arbiter where
  wait  : List Packet
  rr    : Nat
  round : List Nat
  deriving DecidableEq, Repr

/-- A request held at this target: since when, for an absent gang or for an empty line (R169 steps 6 and 8), the time-out
in force when that wait began, 0 when none has begun (an ORD packet behind an earlier one, R164; a packet that loops back),
and whether it has passed steps 1 to 5. -/
structure Held where
  h     : SahatHdr
  data  : List Byte
  since : Nat
  limit : Nat
  srfWait : Bool
  accepted : Bool
  deriving DecidableEq, Repr

/-- A write that has not yet found a free tag (R165, R175): of the launch engine, or the rest of an element that a copy had begun
when it stopped (R421). -/
structure Owed where
  who   : Issuer
  ssid  : BitVec 16
  slack : BitVec 12
  acc   : BitVec 11
  key   : W32
  addr  : Nat
  ctx   : CtxId
  data  : List Byte
  deriving DecidableEq, Repr

/-- A packet that qfetch has taken from a queue and Equinox has not yet acted on (R227): its queue and its 64 bytes. -/
structure Fetched where
  ctx  : CtxId
  qid  : BitVec 12
  data : List Byte
  deriving DecidableEq, Repr

/-- An Ethernet reply or request of the device towards host or peers (R237). -/
inductive EthOut where
  | ack (qp : BitVec 14)
  | readData (qp : BitVec 14) (d : List Byte)
  | atomicOld (qp : BitVec 14) (v : W64)
  | remoteAccessError (qp : BitVec 14)
  | write (qp : BitVec 14) (va : W64) (d : List Byte)
  | pageRequest (ctx : CtxId) (va : W64)
  | connectReply (accepted : Bool)
  | invalidRequest (qp : BitVec 14)
  deriving DecidableEq, Repr

/-- A page that an access waits for (R203): the address, once Equinox has asked the host for it when it asked and the time limit in
ns, and whether its context is gone since, so that the answer is dropped (R237). -/
structure PageAsk where
  ctx  : CtxId
  va   : W64
  sent : Option (Nat × Nat)
  gone : Bool
  deriving DecidableEq, Repr

/-- A queue pair (R237): its context, peer address, port, receive ring and how much of the ring has been written. -/
structure Qp where
  ctx  : CtxId
  peer : W64
  port : W64
  ring : W64
  got  : Nat
  deriving DecidableEq, Repr

/-- A shootdown in progress (R205): its sequence number, range, the units still to acknowledge, and the
frames that are free once it completes. -/
structure Shootdown where
  num   : Nat
  ctx   : CtxId
  lo    : Nat
  hi    : Nat
  left  : List TlbUnit
  frees : List Nat
  deriving DecidableEq, Repr

/-- A firmware slot of the module flash (R252): its image, what the checks of its signatures and keys come to, and its
version fields. -/
structure FlashSlot where
  image   : List Byte
  ecdsaOk : Bool
  lmsOk   : Bool
  keysOk  : Bool
  secVer  : W32
  imgVer  : W32
  deriving DecidableEq, Repr

/-- Boot and module storage (R13, R252 to R254). `status`: 0 ready, 1 booting, 2 no valid image; `copyAt`: where the signed
image stands in HBM4; `idEcdsa` and `idLms`: the identity keys; `attest`: the LMS state counter. -/
structure Boot where
  bootK    : BitVec 7
  slotA    : FlashSlot
  slotB    : FlashSlot
  rollback : W32
  status   : BitVec 8
  slot     : BitVec 8
  deviceId : W64
  copyAt   : Nat
  idEcdsa  : BitVec 384
  idLms    : BitVec 256
  attest   : Nat
  deriving DecidableEq, Repr

/-- An event record (R249), as the ring holds it, and the launch that stops being live once it is written (R42). -/
structure EventRec where
  skind : BitVec 4
  snum  : BitVec 16
  cause : Cause
  typ   : BitVec 4
  ctx   : CtxId
  acc   : BitVec 11
  seq   : W64
  time  : W64
  info  : W64
  ends  : Option Nat
  deriving DecidableEq, Repr

/-- The event machinery (R249 to R251): counts per source, records written, discards, the ring's address, and the records
that wait for a HOST page of the ring. -/
structure Events where
  srcs    : List (BitVec 4 × BitVec 16 × W64)
  written : Nat
  discard : W64
  ring    : W64
  pend    : List EventRec
  deriving DecidableEq, Repr

/-- A result word that waits for the page-in of its HOST page (R232). -/
structure ResultWord where
  ctx  : CtxId
  qid  : BitVec 12
  addr : W64
  val  : W64
  deriving DecidableEq, Repr

/-- A packet that stays on the chip (R165, R176): the context whose SLKCNT counts it, its stream with its SEQ (none for a request
that entered at a host-attach or scale-out port), and the slack it was made with. The turn that made it ends with its answer
(R179 to R181). -/
structure ChipPkt where
  ctx   : CtxId
  strm  : Option (BitVec 16 × BitVec 48)
  slack : BitVec 12
  deriving DecidableEq, Repr

/-- What belongs to the device as a whole. `dealNum` counts the Deal operations accepted (R194). `faults`
holds the faults of this turn that Equinox acts on beside the page requests: their work records are still to be written
(R238). `absent` holds the accelerator IDs that the scale-up domain lacks (log 28). -/
structure Dev where
  memsplit : W32
  fabtime  : W32
  accId    : BitVec 11
  absent   : List (BitVec 11)
  lanes    : Vector (BitVec 3) 16
  arb      : Vector Arbiter 16
  txns     : List Txn
  seqs     : List (BitVec 16 × BitVec 48)
  chip     : List ChipPkt
  dealNum  : Nat
  held     : List Held
  fabricOut : List Packet
  ethOut   : List EthOut
  pageAsks : List PageAsk
  malformed : Nat
  regions  : List (Nat × Region)
  qps      : List (BitVec 14 × Qp)
  frames   : List (Nat × Nat)
  poison   : List Nat
  shoots   : List Shootdown
  shootNum : Nat
  cmds     : List PendingCmd
  faults   : List Cmd
  fetched  : List Fetched
  owed     : List Owed
  results  : List ResultWord
  splits   : List SplitReq
  grants   : List SplitGrant
  boot     : Boot
  ev       : Events
  ras      : List (BitVec 4 × BitVec 16 × Nat)
  scrubs   : Nat
  spareUsed : Vector Bool 4
  spareFor : Vector (Option SpId) 4
  powered  : Bool
  deriving DecidableEq, Repr

/-- The state of the device. `agenda` holds the turns that are known to come next and `tick` counts the steps taken:
both are the model's own (log 2), as are `cur` and `core`, which say which SP and which Equinox core the instruction
under execution belongs to. `mem` is HBM4 in canonical form; `time` is device time in ns (R250). -/
structure State where
  agenda   : List Turn
  tick     : Nat
  cur      : SpId
  core     : CoreId
  time     : Nat
  mem      : List Host.Cell
  sps      : Vector Sp 68
  dies     : Vector Die 4
  cores    : Vector Core 12
  ctxs     : Vector Ctx 64
  gangs    : List Gang
  launches : List Launch
  slots    : Vector Slot 64
  slotSum  : W64
  ctxSum   : W64
  resv     : List Resv
  dev      : Dev
  deriving DecidableEq, Repr

/-! ## Reset -/

def ScpRegs.init : ScpRegs :=
  { s := Vector.replicate 64 0, pc := 0, slk := #v[32, 256, 1024, 4095], trapPc := 0, trapCause := 0, aflags := 0,
    afenable := 0, ttbase := 0, freezes := 0, win := Vector.replicate 16 Window.init }

def StrandId.init : StrandId := ⟨0, 0, 0, 0, 0, 0, 0, 0⟩

def Stores.init : Stores := ⟨[], [], 0, 0, false⟩

def Streams.init : Streams :=
  { tags := Vector.replicate 32 TagState.init, chans := Vector.replicate 16 Channel.init, kq := [], kimq := [],
    kload := none, kpend := .none, fences := [], kmap := [], num := 0 }

/-- A cluster before the first kernel after release: everything reads 0 (R36). -/
def KCluster.init : KCluster :=
  { v := Vector.replicate 32 0, acc := Vector.replicate 4 0, opm := Vector.replicate 32 0,
    opmSt := Vector.replicate 32 .free, z := Vector.replicate 16 0, a := Vector.replicate 32 0, p := 0,
    m := Vector.replicate 8 0, q := Vector.replicate 8 0, kflags := 0, tsr := Vector.replicate 6 0,
    hold := Vector.replicate 10 0 }

def KBind.init : KBind := ⟨0, false, 0⟩

def KEngine.init : KEngine :=
  { cl := Vector.replicate 8 KCluster.init, nit := 0, nps := 0, nst := 0, rot := 0, chk := false, lent := false,
    rstack := [], bind := Vector.replicate 8 KBind.init, run := none, stepNo := 0, infl := [], mulFree := 0,
    drFree := 0, vbFree := 0, xsFree := 0, rep := none, win := [], lit := 0 }

/-- A stream processor after reset: no strand, PWRLIM 1600 (R110), lines empty and zero (log 4, log 5). -/
def Sp.init : Sp :=
  { r := ScpRegs.init, id := StrandId.init, run := .idle, pend := .none, gang := none, seatMap := [],
    sto := Stores.init, str := Streams.init, alloc := 0, srf := [], fe := 0, kim := [], ke := KEngine.init, tlb := [],
    pwrlim := 1600, retired := false, govTotal := 0, corr := [] }

/-- A die after reset: walkers FREE, DISPAGE 64 (R60), FETIME 1000 (R71). -/
def Die.init : Die :=
  { walkers := Vector.replicate 16 .free, pool := [], ready := [], dealer := ⟨[], none, []⟩, l2 := [], dispage := 64,
    fetime := 1000, hot := false, temp := 0, keep := none }

def Core.init (st : CoreStatus) : Core :=
  { x := Vector.replicate 32 0, pc := 0, mepc := 0, mcause := 0, mtval := 0, mtvec := 0, mscratch := 0, ie := 0, instret := 0, mie := false, mpie := false,
    irq := false, disp := none, imem := [], status := st, log := [] }

/-- A context that does not exist. CTXWD 10000, 1000, 20000 (R219); slack defaults of R177; MMR 1 (R158). -/
def Ctx.init : Ctx :=
  { alive := false, ptbase := 0, rmtbase := 0, slkDef := #v[32, 256, 1024, 4095], slkctl := 0, slkcnt := 0,
    ctxwd := 0x0000_4E20_03E8_2710, ordmode := 1, tabA := KickTable.init, tabB := KickTable.init,
    queues := [], codes := [], nextHandle := 1, progress := 0, preempt := none, saved := [], savedOps := [],
    savedPool := [], rebuild := false, kept := [], devUsed := [] }

/-- The flash as delivered (log 7): slot A holds an image that passes the checks, slot B none; k = 16 (R13). -/
def Boot.init : Boot :=
  { bootK := 16, slotA := ⟨[], true, true, true, 1, 1⟩, slotB := ⟨[], false, false, false, 0, 0⟩, rollback := 0, status := 1,
    slot := 0, deviceId := 0, copyAt := 0, idEcdsa := 0, idLms := 0, attest := 0 }

/-- The device-wide part after reset: MEMSPLIT 0 (R13), FABTIME 4000 (R172), arbiters as R178 says. -/
def Dev.init : Dev :=
  { memsplit := 0, fabtime := 4000, accId := 0, absent := [], lanes := Vector.replicate 16 4,
    arb := Vector.replicate 16 ⟨[], 0, []⟩, txns := [], seqs := [], chip := [], dealNum := 0, held := [], fabricOut := [], ethOut := [],
    pageAsks := [], malformed := 0, regions := [], qps := [], frames := [], poison := [], shoots := [], shootNum := 0, cmds := [], faults := [],
    fetched := [], owed := [],
    results := [], splits := [], grants := [], boot := Boot.init, ev := ⟨[], 0, 0, 0, []⟩, ras := [], scrubs := 0,
    spareUsed := Vector.replicate 4 false, spareFor := Vector.replicate 4 none, powered := true }

/-- The machine right after reset, before the boot ROM has run: no work, every register at the value INVENTORY.md
lists. The lowest two cores of each die are active (R18). -/
def State.reset : State :=
  { agenda := [], tick := 0, cur := 0, core := 0, time := 0, mem := [], sps := Vector.replicate 68 Sp.init,
    dies := Vector.replicate 4 Die.init,
    cores := Vector.ofFn fun i => Core.init (if i.val % 3 < 2 then .active else .spare),
    ctxs := Vector.replicate 64 Ctx.init, gangs := [], launches := [],
    slots := Vector.replicate 64 ⟨Qcb.init, 0⟩, slotSum := 0, ctxSum := 0, resv := [], dev := Dev.init }

end Sys2Proof.Machine
end

