-- ==== Sys2Proof/Machine/Ops.lean ====
section
/-! DEFINITION. Named operations over the state: sparse maps in canonical form, bytes of memory, registers, the SRF and
its full/empty bits, taking a user trap (R199), an Equinox core's exception and its return. Every read and write of a
piece of state goes through one of them. -/

namespace Sys2Proof.Machine

open Sys2Proof

/-! ## Sparse maps: strictly rising keys, no entry equal to the default -/

def getAt {α : Type} (d : α) : List (Nat × α) → Nat → α
  | [], _ => d
  | (k, x) :: l, a => if k = a then x else getAt d l a

def setAt {α : Type} [DecidableEq α] (d : α) : List (Nat × α) → Nat → α → List (Nat × α)
  | [], a, x => if x = d then [] else [(a, x)]
  | (k, y) :: l, a, x =>
    if a = k then (if x = d then setAt d l a x else (a, x) :: l)
    else if a < k ∧ x ≠ d then (a, x) :: (k, y) :: l
    else (k, y) :: setAt d l a x

/-- Canonical: every key is at least `lo`, keys rise strictly, no entry is the default. -/
def mapWf {α : Type} [DecidableEq α] (d : α) : Nat → List (Nat × α) → Bool
  | _, [] => true
  | lo, (k, x) :: l => decide (lo ≤ k) && decide (x ≠ d) && mapWf d (k + 1) l

/-- The first value under a key of an association list. -/
def assoc? {κ α : Type} [DecidableEq κ] : List (κ × α) → κ → Option α
  | [], _ => none
  | (k, x) :: l, a => if k = a then some x else assoc? l a

/-- Sets the value under a key. -/
def assocSet {κ α : Type} [DecidableEq κ] : List (κ × α) → κ → α → List (κ × α)
  | [], a, x => [(a, x)]
  | (k, y) :: l, a, x => if k = a then (a, x) :: l else (k, y) :: assocSet l a x

/-- Replaces the element at an index; an index past the end changes nothing. -/
def modList {α : Type} (f : α → α) : List α → Nat → List α
  | [], _ => []
  | x :: l, 0 => f x :: l
  | x :: l, n + 1 => x :: modList f l n

/-! ## Bytes -/

/-- The unsigned number in a list of bytes, the first byte least significant (R1). -/
def leNat : List Byte → Nat
  | [] => 0
  | b :: l => b.toNat + 256 * leNat l

/-- The `n` low bytes of a number, the least significant first. -/
def leBytes : Nat → Nat → List Byte
  | 0, _ => []
  | n + 1, v => BitVec.ofNat 8 v :: leBytes n (v / 256)

/-- Bytes `off` to `off + n - 1` of a record as a number; a byte that is not there counts as 0. -/
def field (l : List Byte) (off n : Nat) : Nat := leNat ((l.drop off).take n)

/-- Bits `[lo + w - 1 : lo]` of a number. -/
def bits (v lo w : Nat) : Nat := v / 2 ^ lo % 2 ^ w

def bit (v n : Nat) : Bool := v / 2 ^ n % 2 == 1

/-- Memory as a canonical list of cells. What an unlisted address reads as is 0 (log 4). -/
def Memory.wf (m : List Host.Cell) : Bool := mapWf (0 : Byte) 0 m

def memByte (m : List Host.Cell) (a : Nat) : Byte := getAt 0 m a
def memSet (m : List Host.Cell) (a : Nat) (b : Byte) : List Host.Cell := setAt 0 m a b

def memBytes (m : List Host.Cell) (a : Nat) : Nat → List Byte
  | 0 => []
  | n + 1 => memByte m a :: memBytes m (a + 1) n

def memWrite (m : List Host.Cell) (a : Nat) : List Byte → List Host.Cell
  | [] => m
  | b :: l => memWrite (memSet m a b) (a + 1) l

/-- A little-endian number of `n` bytes. -/
def memNat (m : List Host.Cell) (a n : Nat) : Nat := leNat (memBytes m a n)

/-- The HBM4 range (R12). -/
def hbmTop : Nat := 0x00C0_0000_0000

/-- The 64-byte words that a write of `n` bytes at `a` covers whole lose their poison (R245). -/
def unpoison (p : List Nat) (a n : Nat) : List Nat := p.filter fun w => !(a ≤ 64 * w && 64 * w + 64 ≤ a + n)

/-- Whether a read of `n` bytes at `a` touches a poisoned word. -/
def poisoned (p : List Nat) (a n : Nat) : Bool := p.any fun w => decide (64 * w < a + n) && decide (a < 64 * w + 64)

/-- A physical write (R12, R245); it ends the load reservations of the bytes (log 6). -/
def State.physWrite (s : State) (a : Nat) (d : List Byte) : State :=
  { s with
    mem := memWrite s.mem a d
    resv := s.resv.filter fun r => !(decide (a < r.addr + r.size) && decide (r.addr < a + d.length))
    dev := { s.dev with poison := unpoison s.dev.poison a d.length } }

/-- A physical read. -/
def State.physRead (s : State) (a n : Nat) : List Byte := memBytes s.mem a n

/-! ## Parts of the state -/

def State.sp (s : State) (i : SpId) : Sp := s.sps[i]
def State.setSp (s : State) (i : SpId) (p : Sp) : State := { s with sps := s.sps.set i p }
def State.modSp (s : State) (i : SpId) (f : Sp → Sp) : State := s.setSp i (f (s.sp i))
/-- The SP whose instruction is executed. -/
def State.me (s : State) : Sp := s.sp s.cur
def State.modMe (s : State) (f : Sp → Sp) : State := s.modSp s.cur f

def State.die (s : State) (i : DieId) : Die := s.dies[i]
def State.setDie (s : State) (i : DieId) (d : Die) : State := { s with dies := s.dies.set i d }
def State.modDie (s : State) (i : DieId) (f : Die → Die) : State := s.setDie i (f (s.die i))

def State.ctx (s : State) (i : CtxId) : Ctx := s.ctxs[i]
def State.setCtx (s : State) (i : CtxId) (c : Ctx) : State := { s with ctxs := s.ctxs.set i c }
def State.modCtx (s : State) (i : CtxId) (f : Ctx → Ctx) : State := s.setCtx i (f (s.ctx i))

def State.eqx (s : State) (i : CoreId) : Core := s.cores[i]
def State.setEqx (s : State) (i : CoreId) (c : Core) : State := { s with cores := s.cores.set i c }
def State.modEqx (s : State) (i : CoreId) (f : Core → Core) : State := s.setEqx i (f (s.eqx i))

def State.slot (s : State) (i : Fin 64) : Slot := s.slots[i]
def State.setSlot (s : State) (i : Fin 64) (q : Slot) : State := { s with slots := s.slots.set i q }

def State.modDev (s : State) (f : Dev → Dev) : State := { s with dev := f s.dev }

def State.launch? (s : State) (n : Nat) : Option Launch := s.launches[n]?
def State.modLaunch (s : State) (n : Nat) (f : Launch → Launch) : State :=
  { s with launches := modList f s.launches n }
def State.gang? (s : State) (n : Nat) : Option Gang := s.gangs[n]?
def State.modGang (s : State) (n : Nat) (f : Gang → Gang) : State := { s with gangs := modList f s.gangs n }
def State.modSeat (s : State) (g n : Nat) (f : Seat → Seat) : State :=
  s.modGang g fun x => { x with seats := modList f x.seats n }

/-- The context of the strand whose instruction is executed. -/
def State.myCtx (s : State) : CtxId := s.me.id.ctx

/-! ## SCP registers -/

/-- s0 reads 0 (R35). -/
def ScpRegs.get (r : ScpRegs) (i : SReg) : W64 := if i = 0 then 0 else r.s[i.toFin]

/-- A write to s0 is discarded (R35, R256). -/
def ScpRegs.put (r : ScpRegs) (i : SReg) (v : W64) : ScpRegs :=
  if i = 0 then r else { r with s := r.s.set i.toFin v }

/-- The 56 bits of a PC (R26). -/
def pc56 (v : W64) : W64 := v &&& 0x00FF_FFFF_FFFF_FFFF

/-- The PC after the instruction at the PC. -/
def ScpRegs.nextPc (r : ScpRegs) : W64 := pc56 (r.pc + 8)

def Sp.modR (p : Sp) (f : ScpRegs → ScpRegs) : Sp := { p with r := f p.r }

/-- A register of the strand under execution. -/
def State.sreg (s : State) (i : SReg) : W64 := s.me.r.get i

/-- The instruction is done: the PC moves on and nothing is pending. -/
def State.retire (s : State) : State :=
  s.modMe fun p => { p with r := { p.r with pc := p.r.nextPc }, pend := .none }

/-- Writes a result and retires. -/
def State.retireTo (s : State) (d : SReg) (v : W64) : State :=
  (s.modMe fun p => p.modR fun r => r.put d v).retire

/-- The instruction continues at `pc`. -/
def State.jumpTo (s : State) (pc : W64) : State :=
  s.modMe fun p => { p with r := { p.r with pc := pc56 pc }, pend := .none }

/-- The instruction waits: nothing changes, and it executes again. -/
def State.waits (s : State) : State := s

/-! ## Taking a user trap, and an Equinox core's exception -/

/-- R199: a user trap with cause `c` at the instruction at the PC; the second component is the cause sent to Equinox
when no handler can be entered. -/
def userTrap (r : ScpRegs) (c : Cause) : ScpRegs × Option Cause :=
  if r.trapCause.getLsbD 10 then (r, some cTrapNested)
  else if r.trapPc &&& 0x00FF_FFFF_FFFF_FFF8 = 0 then
    ({ r with trapCause := (r.trapCause &&& ~~~(0x3FF : W64)) ||| c.setWidth 64 }, some cTrapNoHandler)
  else
    ({ r with
        trapCause := ((r.nextPc >>> 3) <<< 11) ||| 0x400 ||| c.setWidth 64
        pc := r.trapPc &&& 0x00FF_FFFF_FFFF_FFF8 }, none)

/-- RISC-V machine-mode exception codes (log 6). -/
def mcIllegal : W64 := 2
def mcLoadAccess : W64 := 5
def mcStoreAccess : W64 := 7
def mcLoadMisaligned : W64 := 4
def mcStoreMisaligned : W64 := 6

/-- Where a trap goes: mtvec's base, or for an interrupt in vectored mode the entry of its number (log 6). -/
def trapTarget (mtvec cause : W64) : W64 :=
  if cause.getLsbD 63 && mtvec.getLsbD 0 then (mtvec &&& ~~~(3 : W64)) + (cause &&& 0x3FF) * 4 else mtvec &&& ~~~(3 : W64)

/-- A core takes a machine-mode exception: mepc, mcause, mtval, the interrupt-enable stack, and the pc at the handler
(log 6). -/
def takeException (c : Core) (cause tval : W64) : Core :=
  { c with
    mepc := c.pc, mcause := cause, mtval := tval, mpie := c.mie, mie := false
    pc := trapTarget c.mtvec cause }

/-- The return from a machine-mode exception (mret) as the base set has it (log 6). -/
def returnException (c : Core) : Core := { c with pc := c.mepc, mie := c.mpie, mpie := true }

/-- x0 reads 0. -/
def Core.get (c : Core) (i : BitVec 5) : W64 := if i = 0 then 0 else c.x[i.toFin]
def Core.put (c : Core) (i : BitVec 5) (v : W64) : Core :=
  if i = 0 then c else { c with x := c.x.set i.toFin v }
/-- The core's instruction of `n` bytes is done. -/
def Core.retireAs (c : Core) (n : Nat) (d : BitVec 5) (v : W64) : Core :=
  { c.put d v with pc := c.pc + BitVec.ofNat 64 n, instret := c.instret + 1 }
/-- The core's custom instruction is done. -/
def Core.retireTo (c : Core) (d : BitVec 5) (v : W64) : Core := c.retireAs 4 d v
/-- A machine interrupt is pending and enabled (R370). -/
def Core.interrupted (c : Core) : Bool := c.irq && c.mie && c.ie.getLsbD 11

/-! ## The SRF (R66 to R69) -/

/-- Bytes of a line from its bits. -/
def Sp.fByte (p : Sp) (f : Nat) : Byte := (getAt 0 p.srf (f / 128)).extractLsb' (8 * (f % 128)) 8

def setLineByte (l : Line) (i : Nat) (b : Byte) : Line :=
  (l &&& ~~~((0xFF : Line) <<< (8 * i))) ||| (b.setWidth 1024 <<< (8 * i))

def Sp.setFByte (p : Sp) (f : Nat) (b : Byte) : Sp :=
  { p with srf := setAt 0 p.srf (f / 128) (setLineByte (getAt 0 p.srf (f / 128)) (f % 128) b) }

def Sp.fBytes (p : Sp) (f : Nat) : Nat → List Byte
  | 0 => []
  | n + 1 => p.fByte f :: p.fBytes (f + 1) n

def Sp.fWrite (p : Sp) (f : Nat) : List Byte → Sp
  | [] => p
  | b :: l => (p.setFByte f b).fWrite (f + 1) l

/-- Whether the line that holds byte `f` is full. -/
def Sp.full (p : Sp) (f : Nat) : Bool := p.fe.getLsbD (f / 128)

def setBitAt {w : Nat} (v : BitVec w) (i : Nat) (b : Bool) : BitVec w :=
  if b then v ||| ((1 : BitVec w) <<< i) else v &&& ~~~((1 : BitVec w) <<< i)

/-- Sets the bit of the line that holds byte `f`. -/
def Sp.setFull (p : Sp) (f : Nat) (b : Bool) : Sp := { p with fe := setBitAt p.fe (f / 128) b }

/-- Sets the bits of `n` lines from the one that holds byte `f`. -/
def Sp.setFullRange (p : Sp) (f : Nat) (b : Bool) : Nat → Sp
  | 0 => p
  | n + 1 => (p.setFull (f + 128 * n) b).setFullRange f b n

/-- A 4 KiB tile as a register: byte `b` of the register is F byte `f + b` (R371). -/
def Sp.tile (p : Sp) (f : Nat) : Nat → VReg
  | 0 => 0
  | n + 1 => p.tile f n ||| ((getAt 0 p.srf (f / 128 + n)).setWidth 32768 <<< (1024 * n))

/-- Writes the first `n` lines of a tile. -/
def Sp.setTile (p : Sp) (f : Nat) (d : VReg) : Nat → Sp
  | 0 => p
  | n + 1 =>
    let q := p.setTile f d n
    { q with srf := setAt 0 q.srf (f / 128 + n) (d.extractLsb' (1024 * n) 1024) }

/-- Whether all 32 lines of a tile are full. -/
def Sp.tileFull (p : Sp) (f : Nat) : Nat → Bool
  | 0 => true
  | n + 1 => p.full (f + 128 * n) && p.tileFull f n

/-- What an F-space address names for a strand (R66). -/
inductive FPlace where
  /-- An offset of the SRF of the SP that holds this seat; `own` when it is the strand's own SRF. -/
  | srf (sp : SpId) (off : Nat)
  | window (k : Fin 16) (off : Nat)
  | hole
  deriving DecidableEq, Repr

/-- R22, R29, R66, R74, R75: local SRF below A, a seat window below the gang size and below that seat's A, a valid
remote window within the target SRF; everything else is a hole. -/
def State.fDecode (s : State) (me : SpId) (a : Nat) : FPlace :=
  let p := s.sp me
  if a < 0x0080_0000 then (if a < p.alloc then .srf me a else .hole)
  else if a < 0x0800_0000 then .hole
  else if a < 0x1000_0000 then
    let seat := (a - 0x0800_0000) / 0x0080_0000
    let off := (a - 0x0800_0000) % 0x0080_0000
    match p.seatMap[seat]? with
    | some t => if seat < p.id.gangn.toNat && off < (s.sp t).alloc then .srf t off else .hole
    | none => .hole
  else if a < 0x2000_0000 then
    let k : Fin 16 := Fin.ofNat 16 ((a - 0x1000_0000) / 0x0100_0000)
    let off := (a - 0x1000_0000) % 0x0100_0000
    let w := p.r.win[k]
    if off < 0x0080_0000 && w.valid && w.rbase.toNat + off < 0x0080_0000 then .window k off else .hole
  else .hole

end Sys2Proof.Machine
end

