-- ==== Sys2Proof/Machine/Mem.lean ====
section
/-! DEFINITION. Translation (R201 to R204), G-space accesses of every agent, the TLBs, physical frames, and event
records (R249 to R251). -/

namespace Sys2Proof.Machine

open Sys2Proof

/-! ## Pages -/

/-- A translated page: its leaf PTE, the page's virtual base and size, and the RMT entry of a REMOTE page. -/
structure Leaf where
  pte   : Nat
  base  : Nat
  psize : Nat
  rmt   : Option (W64 × W64)
  deriving DecidableEq, Repr

/-- KIND of a leaf (R202): 0 NORMAL, 1 REMOTE, 2 APERTURE, 3 HOST. -/
def pteKind (e : Nat) : Nat := bits e 2 2
/-- ORD of a leaf: 0 SO, 1 RC, 2 UN. -/
def pteOrd (e : Nat) : Nat := bits e 4 2
def pteFrame (e : Nat) : Nat := bits e 12 34 * 4096
def Leaf.kind (l : Leaf) : Nat := pteKind l.pte
def Leaf.ord (l : Leaf) : Nat := pteOrd l.pte
/-- The physical address of `va` on the page. -/
def Leaf.pa (l : Leaf) (va : Nat) : Nat := pteFrame l.pte + (va - l.base)

/-- The page size of a leaf at a level with a RUN code (R202). -/
def pageSize (lvl run : Nat) : Option Nat :=
  match lvl, run with
  | 3, 0 => some 0x1000
  | 3, 1 => some 0x1_0000
  | 3, 2 => some 0x10_0000
  | 2, 0 => some 0x80_0000
  | 2, 1 => some 0x800_0000
  | 1, 0 => some 0x4_0000_0000
  | 1, 1 => some 0x40_0000_0000
  | _, _ => none

/-- Step 3 of R203 for a leaf entry: its page size if it is well formed. -/
def leafSize (lvl e : Nat) : Option Nat :=
  match pageSize lvl (bits e 9 2) with
  | none => none
  | some p =>
    if pteOrd e = 3 || bit e 11 then none
    else if pteKind e = 1 then (if bits e 56 8 = 0 then some p else none)
    else if pteKind e = 2 then (if bits e 12 52 = 0 ∧ p = 0x1_0000 then some p else none)
    else if bits e 46 18 = 0 ∧ pteFrame e % p = 0 then some p else none

/-- Entry index of `va` at a level (R201). -/
def tableIdx (va lvl : Nat) : Nat := va / 2 ^ (45 - 11 * lvl) % 2048

/-- Step 2 of R203 comes before step 3: below a non-leaf entry with a reserved bit, only V = 0 at a deeper level counts. -/
def belowBad (r : Except Cause (Nat × Nat)) : Except Cause (Nat × Nat) :=
  match r with
  | .error c => .error (if c = cPageNotPresent then c else cPteBad)
  | .ok _ => .error cPteBad

/-- The walk from a table at level `3 - n`: the leaf entry with its page size, or the cause of steps 2 and 3. -/
def walkFrom (m : List Host.Cell) (va : Nat) : Nat → Nat → Except Cause (Nat × Nat)
  | 0, tbl =>
    let e := memNat m (tbl + 8 * tableIdx va 3) 8
    if !bit e 0 then .error cPageNotPresent
    else if !bit e 1 then .error cPteBad
    else match leafSize 3 e with
      | some p => .ok (e, p)
      | none => .error cPteBad
  | n + 1, tbl =>
    let e := memNat m (tbl + 8 * tableIdx va (2 - n)) 8
    if !bit e 0 then .error cPageNotPresent
    else if bit e 1 then
      match leafSize (2 - n) e with
      | some p => .ok (e, p)
      | none => .error cPteBad
    else if bits e 2 12 ≠ 0 ∨ bits e 46 18 ≠ 0 then belowBad (walkFrom m va n (bits e 14 32 * 2 ^ 14))
    else walkFrom m va n (bits e 14 32 * 2 ^ 14)

/-- PTBASE[45:14] (R201). -/
def rootTable (c : Ctx) : Nat := bits c.ptbase.toNat 14 32 * 2 ^ 14

/-- The RMT entry that a REMOTE leaf names (R174). -/
def rmtEntry (s : State) (ctx : CtxId) (idx : Nat) : W64 × W64 :=
  let a := bits (s.ctx ctx).rmtbase.toNat 16 40 * 2 ^ 16 + 16 * idx
  (BitVec.ofNat 64 (memNat s.mem a 8), BitVec.ofNat 64 (memNat s.mem (a + 8) 8))

/-- A page-table walk (R201 to R203, steps 1 to 3). -/
def walk (s : State) (ctx : CtxId) (va : Nat) : Except Cause Leaf :=
  if va ≥ 2 ^ 56 then .error cVaRange
  else match walkFrom s.mem va 3 (rootTable (s.ctx ctx)) with
    | .error c => .error c
    | .ok (e, p) =>
      .ok { pte := e, base := va / p * p, psize := p
            rmt := if pteKind e = 1 then some (rmtEntry s ctx (bits e 12 12)) else none }

/-! ## TLBs (R204) -/

/-- Whose translation it is: an SP (its L1, then its die's L2), the Dealer of a die (L2), or a walk with no TLB. -/
inductive TUnit where
  | sp (i : SpId)
  | die (d : DieId)
  | none
  deriving DecidableEq, Repr

def tlbFind (l : List TlbEntry) (ctx : CtxId) (va : Nat) : Option TlbEntry :=
  l.find? fun e => e.ctx = ctx && decide (e.base ≤ va) && decide (va < e.base + e.psize)

def TlbEntry.leaf (e : TlbEntry) : Leaf := ⟨e.pte.toNat, e.base, e.psize, e.rmt⟩

/-- The cached translation, if any. -/
def tlbHit (s : State) (u : TUnit) (ctx : CtxId) (va : Nat) : Option Leaf :=
  match u with
  | .none => none
  | .die d => (tlbFind (s.die d).l2 ctx va).map TlbEntry.leaf
  | .sp i =>
    match tlbFind (s.sp i).tlb ctx va with
    | some e => some e.leaf
    | none => (tlbFind (s.die (dieOf i)).l2 ctx va).map TlbEntry.leaf

/-- A translation: cached or walked. -/
def lookup (s : State) (u : TUnit) (ctx : CtxId) (va : Nat) : Except Cause Leaf :=
  match tlbHit s u ctx va with
  | some l => .ok l
  | none => walk s ctx va

/-- Puts an entry first; the oldest leaves when the TLB is full (log 8). -/
def tlbAdd (cap : Nat) (e : TlbEntry) (l : List TlbEntry) : List TlbEntry :=
  (e :: l.filter fun x => !(x.ctx = e.ctx && x.base = e.base && x.psize = e.psize)).take cap

/-- Keeps a translation in the TLBs of the unit (R204). -/
def fillTlb (s : State) (u : TUnit) (ctx : CtxId) (l : Leaf) : State :=
  let e : TlbEntry := ⟨ctx, l.base, l.psize, BitVec.ofNat 64 l.pte, l.rmt⟩
  match u with
  | .none => s
  | .die d => s.modDie d fun x => { x with l2 := tlbAdd 8192 e x.l2 }
  | .sp i =>
    (s.modDie (dieOf i) fun x => { x with l2 := tlbAdd 8192 e x.l2 }).modSp i
      fun x => { x with tlb := tlbAdd 64 e x.tlb }

/-! ## Checks 4 to 8 of R203 -/

/-- What an access does with the page. -/
inductive Use where
  | read | write | amo | fetch
  deriving DecidableEq, Repr

/-- Who makes the access (R65). `scpStg8` is an stg of size 8; `outside` is a remote requester or a RoCEv2 request;
`equinox` is firmware reading queues, records and operands; `device` is the device's own access to the records it keeps
(R53, R428), which no W holds back (log 94). -/
inductive Agent where
  | scp | scpStg8 | copy (sadd : Bool) | dealer | outside | equinox | device
  deriving DecidableEq, Repr

/-- The start of the die-local regions (R13). -/
def interTop (memsplit : W32) : Nat := 4 * (192 - 3 * bits memsplit.toNat 0 7) * 2 ^ 30

/-- R174: an entry that is not VALID or has a nonzero reserved bit. -/
def rmtBad (r : W64 × W64) : Bool := !bit r.1.toNat 11 || bits r.1.toNat 12 20 != 0 || bits r.2.toNat 56 8 != 0

/-- Steps 4 to 8 of R203. A large page whose frame lies in both regions matches neither locality (log 95). A REMOTE page
does not admit firmware (log 96). -/
def checkUse (s : State) (l : Leaf) (u : Use) (ag : Agent) : Option Cause :=
  let k := l.kind
  let framed := k = 0 || k = 3
  let f := pteFrame l.pte
  if framed && f + l.psize > hbmTop then some cPtePaInvalid
  else if framed && !bit l.pte 6 && f + l.psize > interTop s.dev.memsplit then some cPteLocalityMismatch
  else if framed && bit l.pte 6 && f < interTop s.dev.memsplit then some cPteLocalityMismatch
  else if (u = .write || u = .amo) && !bit l.pte 7 && ag != .device then some cPageWriteDenied
  else if u = .fetch && (!bit l.pte 8 || k = 1 || k = 2) then some cPageExecDenied
  else if k = 2 then (if ag = .scpStg8 && u = .write then none else
    some (if ag = .outside then cRemotePageFault else cApertureMisuse))
  else if (k = 1 || k = 3) && ag = .copy true then some cCopySaddPage
  else if k = 1 && (ag = .outside || ag = .equinox) then some cRemotePageFault
  else if k = 1 && (l.rmt.map rmtBad).getD true then some cRemoteMapInvalid
  else none

/-- Every check of R203: the page, or the cause of the first check that fails. -/
def translate (s : State) (tu : TUnit) (ctx : CtxId) (va : Nat) (u : Use) (ag : Agent) : Except Cause Leaf :=
  match lookup s tu ctx va with
  | .error c => .error c
  | .ok l =>
    match checkUse s l u ag with
    | some c => .error c
    | none => .ok l

/-- Target accelerator, key and address of an access to a REMOTE page (R174); the sum wraps at 56 bits (log 97). -/
def Leaf.remote (l : Leaf) (va : Nat) : BitVec 11 × W32 × Nat :=
  let r := l.rmt.getD (0, 0)
  (r.1.setWidth 11, (r.1 >>> 32).setWidth 32,
    (bits r.2.toNat 0 56 + bits l.pte 24 32 * l.psize + va % l.psize) % 2 ^ 56)

/-- How many bytes from `va` on one packet or one access to the page can cover: they end with the page, and on a REMOTE page
with the 256-byte block of ADDR (R161). -/
def Leaf.room (l : Leaf) (va : Nat) : Nat :=
  let n := l.base + l.psize - va
  if l.kind = 1 then min n (256 - (l.remote va).2.2 % 256) else n

/-! ## HOST pages that are not present (R203, R235) -/

/-- The invalid entry that Equinox keeps for a HOST mapping (V = 0 leaves its bits free): the address of the entry, the
entry, and its page size; bits [47:46] hold the die of a DIE_LOCAL mapping (log 9). -/
def hostEntryFrom (m : List Host.Cell) (va : Nat) : Nat → Nat → Option (Nat × Nat × Nat)
  | 0, tbl =>
    let a := tbl + 8 * tableIdx va 3
    let e := memNat m a 8
    if !bit e 0 && bit e 1 && pteKind e == 3 then (pageSize 3 (bits e 9 2)).map fun p => (a, e, p) else none
  | n + 1, tbl =>
    let a := tbl + 8 * tableIdx va (2 - n)
    let e := memNat m a 8
    if bit e 0 && !bit e 1 then hostEntryFrom m va n (bits e 14 32 * 2 ^ 14)
    else if !bit e 0 && bit e 1 && pteKind e == 3 then
      (pageSize (2 - n) (bits e 9 2)).map fun p => (a, e, p)
    else none

def hostEntry (s : State) (ctx : CtxId) (va : Nat) : Option (Nat × Nat × Nat) :=
  if va ≥ 2 ^ 56 then none else hostEntryFrom s.mem va 3 (rootTable (s.ctx ctx))

/-- R198, R203: Equinox can repair exactly a PAGE_NOT_PRESENT on a HOST mapping. -/
def repairable (s : State) (ctx : CtxId) (va : Nat) (c : Cause) : Bool :=
  c = cPageNotPresent && (hostEntry s ctx va).isSome

/-- `va` lies on the page of size `p` at `base`. -/
def onPage (base p va : Nat) : Bool := decide (base ≤ va) && decide (va < base + p)

/-- An access asks Equinox for the HOST page of `va`; one request serves every access to the page (R203). -/
def askPage (s : State) (ctx : CtxId) (va : W64) : State :=
  match hostEntry s ctx va.toNat with
  | none => s
  | some (_, _, p) =>
    if s.dev.pageAsks.any fun a => a.ctx = ctx && !a.gone && onPage (va.toNat / p * p) p a.va.toNat then s
    else s.modDev fun d => { d with pageAsks := d.pageAsks ++ [⟨ctx, va, none, false⟩] }

/-! ## Pieces of an access that lie on one 4 KiB page -/

/-- Cuts `[va, va + n)` at the multiples of `unit`; `fuel` bounds the number of pieces. -/
def pieces (unit va n : Nat) : Nat → List (Nat × Nat)
  | 0 => []
  | fuel + 1 =>
    if n = 0 then []
    else
      let k := min n (unit - va % unit)
      (va, k) :: pieces unit (va + k) (n - k) fuel

/-- A read of G-space that uses NORMAL and HOST pages only: its bytes, or the first fault with its address. A REMOTE
page answers `none`. -/
def gReadPieces (s : State) (tu : TUnit) (ctx : CtxId) (ag : Agent) : List (Nat × Nat) → Except (Cause × Nat) (List Byte)
  | [] => .ok []
  | (va, n) :: l =>
    match translate s tu ctx va .read ag with
    | .error c => .error (c, va)
    | .ok lf =>
      if lf.kind = 1 then .error (cRemoteMapInvalid, va)
      else if poisoned s.dev.poison (lf.pa va) n then .error (cMediaError, va)
      else
        match gReadPieces s tu ctx ag l with
        | .error e => .error e
        | .ok d => .ok (s.physRead (lf.pa va) n ++ d)

def gRead (s : State) (tu : TUnit) (ctx : CtxId) (ag : Agent) (va n : Nat) : Except (Cause × Nat) (List Byte) :=
  gReadPieces s tu ctx ag (pieces 4096 va n (n + 1))

/-- A write of G-space to NORMAL and HOST pages: every page is checked before the first byte is written. -/
def gWritePlaces (s : State) (tu : TUnit) (ctx : CtxId) (ag : Agent) : List (Nat × Nat) → Except (Cause × Nat) (List (Nat × Nat))
  | [] => .ok []
  | (va, n) :: l =>
    match translate s tu ctx va .write ag with
    | .error c => .error (c, va)
    | .ok lf =>
      if lf.kind = 1 ∨ lf.kind = 2 then .error (cRemoteMapInvalid, va)
      else
        match gWritePlaces s tu ctx ag l with
        | .error e => .error e
        | .ok r => .ok ((lf.pa va, n) :: r)

def physWriteAll (s : State) : List (Nat × Nat) → List Byte → State
  | [], _ => s
  | (pa, n) :: l, d => physWriteAll (s.physWrite pa (d.take n)) l (d.drop n)

def gWrite (s : State) (tu : TUnit) (ctx : CtxId) (ag : Agent) (va : Nat) (d : List Byte) :
    Except (Cause × Nat) State :=
  match gWritePlaces s tu ctx ag (pieces 4096 va d.length (d.length + 1)) with
  | .error e => .error e
  | .ok ps => .ok (physWriteAll s ps d)

/-! ## Physical frames and page tables (R202, R235; log 10) -/

def alignUp (a n : Nat) : Nat := (a + n - 1) / n * n

/-- The region a frame is taken from: interleaved, or the local region of a die (R13). -/
def regionRange (s : State) (die : Option DieId) : Nat × Nat :=
  let k := bits s.dev.memsplit.toNat 0 7
  let top := interTop s.dev.memsplit
  match die with
  | none => (0, top)
  | some d => (top + d.val * (3 * k) * 2 ^ 30, top + (d.val + 1) * (3 * k) * 2 ^ 30)

def frameFree (fs : List (Nat × Nat)) (a n : Nat) : Bool := fs.all fun f => decide (a + n ≤ f.1) || decide (f.1 + f.2 ≤ a)

/-- The lowest multiple of `al` in [lo, hi) at which `n` bytes are free. -/
def lowestFit (used : List (Nat × Nat)) (lo hi al n : Nat) : Option Nat :=
  let cands := (alignUp lo al :: used.map fun f => alignUp (max lo (f.1 + f.2)) al).filter
    fun a => decide (a + n ≤ hi) && frameFree used a n
  cands.foldl (fun b a => match b with
    | none => some a
    | some x => some (min x a)) none

/-- The lowest free aligned block of `n` bytes of a region (log 10). -/
def findFrame (s : State) (die : Option DieId) (n : Nat) : Option Nat :=
  let r := regionRange s die
  lowestFit s.dev.frames r.1 r.2 n n

def takeFrame (s : State) (a n : Nat) : State := s.modDev fun d => { d with frames := (a, n) :: d.frames }
def dropFrame (s : State) (a : Nat) : State := s.modDev fun d => { d with frames := d.frames.filter fun f => f.1 != a }

/-- Writes 0 to `n` bytes at `a` (R245: words that the write covers lose their poison). -/
def zeroMem (s : State) (a n : Nat) : State :=
  { s with
    mem := s.mem.filter fun c => decide (c.1 < a) || decide (a + n ≤ c.1)
    resv := s.resv.filter fun r => !(decide (a < r.addr + r.size) && decide (r.addr < a + n))
    dev := { s.dev with poison := unpoison s.dev.poison a n } }

/-- A fresh zeroed block of the interleaved region. -/
def allocZero (s : State) (n : Nat) : Option (Nat × State) :=
  match findFrame s none n with
  | none => none
  | some a => some (a, zeroMem (takeFrame s a n) a n)

def putPte (s : State) (a e : Nat) : State := s.physWrite a (leBytes 8 e)

/-- Writes the entry of `va` at level `lvl`, making the tables above it; `n` levels remain from the table `tbl`. -/
def setEntry (s : State) (va lvl e : Nat) : Nat → Nat → Option State
  | 0, tbl => some (putPte s (tbl + 8 * tableIdx va 3) e)
  | n + 1, tbl =>
    let a := tbl + 8 * tableIdx va (2 - n)
    if lvl = 2 - n then some (putPte s a e)
    else
      let x := memNat s.mem a 8
      if bit x 0 && !bit x 1 then setEntry s va lvl e n (bits x 14 32 * 2 ^ 14)
      else
        match allocZero s 0x4000 with
        | none => none
        | some (t, s1) => setEntry (putPte s1 a (t + 1)) va lvl e n t

/-- The level, RUN code and page size of a page-size code (R235). -/
def sizeCode (c : Nat) : Option (Nat × Nat × Nat) :=
  match c with
  | 0 => some (3, 0, 0x1000)
  | 1 => some (3, 1, 0x1_0000)
  | 2 => some (3, 2, 0x10_0000)
  | 3 => some (2, 0, 0x80_0000)
  | 4 => some (2, 1, 0x800_0000)
  | 5 => some (1, 0, 0x4_0000_0000)
  | 6 => some (1, 1, 0x40_0000_0000)
  | _ => none

/-- Entries in a run (R202) and bytes that one entry covers. -/
def runLength (run : Nat) : Nat := if run = 1 then 16 else if run = 2 then 256 else 1
def levelBytes (lvl : Nat) : Nat := 2 ^ (45 - 11 * lvl)

/-- Writes every entry of the run of one page: all identical (R202). -/
def setRun (s : State) (root va lvl e : Nat) : Nat → Option State
  | 0 => some s
  | n + 1 =>
    match setEntry s (va + n * levelBytes lvl) lvl e 3 root with
    | none => none
    | some s1 => setRun s1 root va lvl e n

/-- The entry of `va` at its leaf level if a mapping of the context, present or kept for HOST, covers it. -/
def mapped (s : State) (ctx : CtxId) (va : Nat) : Bool :=
  (match walk s ctx va with
    | .ok _ => true
    | .error c => c != cPageNotPresent) || (hostEntry s ctx va).isSome

/-! ## Source streams and packets that stay on the chip (R165, R176; log 117) -/

/-- The stream of an SP's SCP (R165). -/
def ssidScp (sp : SpId) : BitVec 16 := BitVec.ofNat 16 (sp.val * 256)
def ssidWindow (sp : SpId) (k : Fin 16) : BitVec 16 := BitVec.ofNat 16 (sp.val * 256 + 0x10 + k.val)
def ssidChan (sp : SpId) (c : ChId) : BitVec 16 := BitVec.ofNat 16 (sp.val * 256 + 0x20 + c.val)
def ssidKload (sp : SpId) : BitVec 16 := BitVec.ofNat 16 (sp.val * 256 + 0x30)
def ssidDealer (d : DieId) : BitVec 16 := BitVec.ofNat 16 ((0xF0 + d.val) * 256 + 0x40)
def ssidCore (c : CoreId) : BitVec 16 := BitVec.ofNat 16 ((0xF0 + c.val / 3) * 256 + 0x50 + c.val % 3)
def ssidEngine (d : DieId) : BitVec 16 := BitVec.ofNat 16 ((0xF0 + d.val) * 256 + 0x60)
def ssidFront (d : DieId) : BitVec 16 := BitVec.ofNat 16 ((0xF0 + d.val) * 256 + 0x70)

/-- The next SEQ of a stream (R165). -/
def nextSeq (s : State) (ssid : BitVec 16) : BitVec 48 := (assoc? s.dev.seqs ssid).getD 0 + 1

/-- `n` packets of a stream to targets on this chip (R165): their SEQs are counted, and their answers come within the turn. -/
def State.chip (s : State) (ctx : CtxId) (ssid : BitVec 16) (slack : BitVec 12) (n : Nat) : State :=
  if n = 0 then s
  else
    let q := nextSeq s ssid
    s.modDev fun d =>
      { d with
        seqs := assocSet d.seqs ssid (q + BitVec.ofNat 48 (n - 1))
        chip := d.chip ++ (List.range n).map fun i => ⟨ctx, some (ssid, q + BitVec.ofNat 48 i), slack⟩ }

/-- How many packets an access to `n` bytes at `a` makes: one for each 256-byte block it touches (R161). -/
def blocks (a n : Nat) : Nat := if n = 0 then 0 else (a + n - 1) / 256 - a / 256 + 1

/-- The slack of packets that Equinox makes (R176). -/
def slackEqx : BitVec 12 := 4095

/-- The slack of requests that enter from the host-attach or scale-out ports (R176). -/
def slackPort : BitVec 12 := 1024

/-- Packets of a request that entered at a port, for `n` bytes at `a` (R176). They are of no stream of this device (R165). -/
def State.chipPort (s : State) (ctx : CtxId) (a n : Nat) : State :=
  s.modDev fun d => { d with chip := d.chip ++ List.replicate (blocks a n) ⟨ctx, none, slackPort⟩ }

/-- Packets of the Equinox core that acts, for `n` bytes at `a` (R165, R176). -/
def State.chipEqx (s : State) (ctx : CtxId) (a n : Nat) : State := s.chip ctx (ssidCore s.core) slackEqx (blocks a n)

/-- Packets of the front end of a die, for `n` bytes at `a`: continuation records, save areas, KIM images (R165; log 117), with
the device's own slack (R176; log 38). -/
def State.chipFront (s : State) (ctx : CtxId) (die : DieId) (a n : Nat) : State :=
  s.chip ctx (ssidFront die) slackEqx (blocks a n)

/-! ## Event records (R249 to R251) -/

/-- An event record as 32 bytes (R249). -/
def EventRec.bytes (e : EventRec) : List Byte :=
  leBytes 8 (e.skind.toNat + e.snum.toNat * 2 ^ 4 + e.cause.toNat * 2 ^ 20 + e.typ.toNat * 2 ^ 30
    + e.ctx.val * 2 ^ 34 + e.acc.toNat * 2 ^ 40)
    ++ leBytes 8 e.seq.toNat ++ leBytes 8 e.time.toNat ++ leBytes 8 e.info.toNat

/-- Writes a context's memory as the device does. -/
def devWrite (s : State) (ctx : CtxId) (va : Nat) (d : List Byte) : Except (Cause × Nat) State :=
  gWrite s .none ctx .device va d

def State.ethSend (s : State) (o : EthOut) : State := s.modDev fun d => { d with ethOut := d.ethOut ++ [o] }

/-- Stores the discard count (R251). -/
def noteDiscard (s : State) : State :=
  let s1 := s.modDev fun d => { d with ev := { d.ev with discard := d.ev.discard + 1 } }
  match gWrite s1 .none 0 .equinox (0x2_0008 + s1.dev.ev.ring.toNat) (leBytes 8 s1.dev.ev.discard.toNat) with
  | .ok s2 => s2
  | .error _ => s1

/-- What comes of writing a record to the ring (R251): written, waiting for the page of an address, or not to be
written. -/
inductive RingPut where
  | done (s : State)
  | wait (va : Nat)
  | lost

def ringPut (s : State) (e : EventRec) : RingPut :=
  let ring := s.dev.ev.ring.toNat
  let failed (x : Cause × Nat) : RingPut := if repairable s 0 x.2 x.1 then .wait x.2 else .lost
  match gRead s .none 0 .equinox (0x2_0000 + ring) 8 with
  | .error x => failed x
  | .ok b =>
    if s.dev.ev.written - leNat b ≥ 4096 then .lost
    else
      match gWrite s .none 0 .equinox (ring + 32 * (s.dev.ev.written % 4096)) e.bytes with
      | .error x => failed x
      | .ok t => .done (t.modDev fun d => { d with ev := { d.ev with written := d.ev.written + 1 } })

/-- The launch whose record this is stops being live with it (R42). -/
def EventRec.over (e : EventRec) (s : State) : State :=
  match e.ends with
  | some li => s.modLaunch li fun l => { l with gone := true }
  | none => s

/-- Writes a record, or discards and counts it. While Equinox brings a HOST page of the ring, the record and those after
it wait (R203, R251). -/
def putEvent (s : State) (e : EventRec) : State :=
  let later := s.modDev fun d => { d with ev := { d.ev with pend := d.ev.pend ++ [e] } }
  if !s.dev.ev.pend.isEmpty then later
  else
    match ringPut s e with
    | .done t => e.over t
    | .wait va => askPage later 0 (BitVec.ofNat 64 va)
    | .lost => e.over (noteDiscard s)

/-- The records that waited for a page of the ring are tried again, or (`lost`) discarded and counted. -/
def eventsAgain (s : State) (lost : Bool) : State :=
  s.dev.ev.pend.foldl (fun t e => if lost then e.over (noteDiscard t) else putEvent t e)
    (s.modDev fun d => { d with ev := { d.ev with pend := [] } })

/-- Writes an event record to the ring of context 0 (R249, R251); with it the launch `ends`, if one is named, stops being live. -/
def emitEnds (ends : Option Nat) (s : State) (skind : BitVec 4) (snum : BitVec 16) (cause : Cause) (typ : BitVec 4)
    (ctx : CtxId) (acc : BitVec 11) (info : W64) : State :=
  let k := (skind, snum)
  let seq : W64 := ((s.dev.ev.srcs.find? fun x => (x.1, x.2.1) = k).map fun x => x.2.2).getD 0 + 1
  let s1 := s.modDev fun d =>
    { d with ev := { d.ev with
        srcs := (skind, snum, seq) :: d.ev.srcs.filter fun x => !((x.1, x.2.1) = k) } }
  putEvent s1 ⟨skind, snum, cause, typ, ctx, acc, seq, BitVec.ofNat 64 s.time, info, ends⟩

def emit (s : State) (skind : BitVec 4) (snum : BitVec 16) (cause : Cause) (typ : BitVec 4) (ctx : CtxId) (acc : BitVec 11)
    (info : W64) : State := emitEnds none s skind snum cause typ ctx acc info

/-- R431: launch `li` ended FAILED, or its completion write failed. It is live until the record is written (R42). -/
def emitLaunch (s : State) (li : Nat) (ctx : CtxId) (c : Cause) (seq : W64) : State :=
  emitEnds (some li) s 4 0 c 2 ctx s.dev.accId seq

/-- The record of the launch's failure waits for a page of the ring. -/
def recordWaits (s : State) (li : Nat) : Bool := s.dev.ev.pend.any fun e => e.ends = some li
/-- R431: a task fault. -/
def emitTask (s : State) (sp : SpId) (ctx : CtxId) (c : Cause) (seq : W64) : State :=
  emit s 0 (ssidScp sp) c 1 ctx s.dev.accId seq
/-- R431: a Deal event. -/
def emitDeal (s : State) (d : DieId) (ctx : CtxId) (c : Cause) (seq : W64) : State :=
  emit s 0 (ssidDealer d) c 3 ctx s.dev.accId seq
/-- R431: a queue event. -/
def emitQueue (s : State) (ctx : CtxId) (c : Cause) (qid : BitVec 12) : State :=
  emit s 4 0 c 7 ctx s.dev.accId (qid.setWidth 64)
/-- R431: a copy's end. -/
def emitCopy (s : State) (sp : SpId) (ch : ChId) (ctx : CtxId) (c : Cause) (info : W64) : State :=
  emit s 0 (ssidChan sp ch) c 8 ctx s.dev.accId info

end Sys2Proof.Machine
end

