-- ==== Sys2Proof/Machine/Land.lean ====
section
/-! DEFINITION. The kernel engine's registers, the elements of registers and operand slots, the exact mma of a whole
accumulator (R128, R330), and results that land (R96, R97). -/

namespace Sys2Proof.Machine

open Sys2Proof

/-! ## Elements -/

/-- Element `i` of width `w`. -/
def elemAt {n : Nat} (w : Nat) (v : BitVec n) (i : Nat) : BitVec w := v.extractLsb' (w * i) w

/-- The word of `n` elements of width `w`, element `i` being `f i`. -/
def joinE (w : Nat) (f : Nat → BitVec w) : (n : Nat) → BitVec (w * n)
  | 0 => 0
  | n + 1 => ((f n) ++ (joinE w f n)).cast (by rw [Nat.mul_succ, Nat.add_comm])

/-- A register built from its 1,024 lanes of 32 bits. -/
def ofLanes (f : Nat → BitVec 32) : VReg := joinE 32 f 1024

/-- A register built from elements of 16 or 32 bits. -/
def ofElems (w : Nat) (f : Nat → Nat) : VReg :=
  if w = 32 then ofLanes fun i => BitVec.ofNat 32 (f i) else joinE 16 (fun i => BitVec.ofNat 16 (f i)) 2048

def vElem (w : Nat) (v : VReg) (i : Nat) : Nat := (elemAt w v i).toNat

/-- Number of elements and elements of a row (R392). -/
def nElems (w : Nat) : Nat := 32768 / w
def rowLen (w : Nat) : Nat := 2048 / w

/-- All ones of a register. -/
def vOnes : VReg := BitVec.allOnes 32768

/-! ## Accumulators (R104) -/

/-- acc4 and acc5 are v24 to v27 and v28 to v31. -/
def KCluster.accGet (k : KCluster) (a : BitVec 3) : AccV :=
  if h : a.toNat < 4 then k.acc[a.toNat]
  else
    let b : Nat := if a = 4 then 24 else 28
    let r (i : Nat) : AccV := (k.v[(Fin.ofNat 32 (b + i))]).setWidth 131072 <<< (32768 * i)
    r 0 ||| r 1 ||| r 2 ||| r 3

def KCluster.accPut (k : KCluster) (a : BitVec 3) (x : AccV) : KCluster :=
  if h : a.toNat < 4 then { k with acc := k.acc.set a.toNat x }
  else
    let b : Nat := if a = 4 then 24 else 28
    let p (v : Vector VReg 32) (i : Nat) : Vector VReg 32 :=
      v.set (Fin.ofNat 32 (b + i)) (x.extractLsb' (32768 * i) 32768)
    { k with v := p (p (p (p k.v 0) 1) 2) 3 }

/-- A write to a31 is discarded (R262); a31 reads the cluster index. -/
def KCluster.aGet (k : KCluster) (c : ClId) (i : Nat) : W32 :=
  if i = 31 then BitVec.ofNat 32 c.val else k.a[(Fin.ofNat 32 i)]
def KCluster.aPut (k : KCluster) (i : Nat) (v : W32) : KCluster :=
  if i = 31 then k else { k with a := k.a.set (Fin.ofNat 32 i) v }
/-- p0 reads true; a write to it is discarded (R5, R262). -/
def KCluster.pGet (k : KCluster) (i : Nat) : Bool := i == 0 || k.p.getLsbD i
def KCluster.pPut (k : KCluster) (i : Nat) (b : Bool) : KCluster :=
  if i = 0 then k else { k with p := setBitAt k.p i b }
def KCluster.flag (k : KCluster) (f : KF) : KCluster := { k with kflags := k.kflags ||| f }

/-! ## The parts in which mma reads its slots (R331) -/

/-- Steps of the multiplier, and bits of a line read on each of them. -/
def mmaSteps (fa : BitVec 4) : Nat := if fa = 8 then 16 else 8
def mmaPartBits (f : BitVec 4) : Nat := if f = 8 then 32 else if f = 4 ∨ f = 5 then 48 else 64

/-- The bits of part `i` in every one of the 64 lines. -/
def partMask (pb i : Nat) : VReg :=
  BitVec.ofNat 32768 ((2 ^ pb - 1) * 2 ^ (pb * i) * ((2 ^ 32768 - 1) / (2 ^ 512 - 1)))

/-- Takes the bits under a mask from `new`. -/
def merge {n : Nat} (old new mask : BitVec n) : BitVec n := (old &&& ~~~mask) ||| (new &&& mask)

/-- An mma on step `t` reads its part of the two slots (R331). -/
def MmaRun.read (r : MmaRun) (k : KCluster) (t : Nat) : MmaRun :=
  if r.t0 ≤ t ∧ t < r.t0 + mmaSteps r.fa then
    let i := t - r.t0
    { r with
      capA := merge r.capA k.opm[r.oa.toFin] (partMask (mmaPartBits r.fa) i)
      capB := merge r.capB k.opm[r.ob.toFin] (partMask (mmaPartBits r.fb) i) }
  else r

/-! ## Operand elements of mma (R119 to R122) -/

/-- K and bits of an element. -/
def mmaK (f : BitVec 4) : Nat :=
  match f.toNat with
  | 0 => 32
  | 1 => 32
  | 6 => 128
  | 8 => 16
  | _ => 64
def mmaBits (f : BitVec 4) : Nat :=
  match f.toNat with
  | 0 => 16
  | 1 => 16
  | 4 => 6
  | 5 => 6
  | 6 => 4
  | 8 => 32
  | _ => 8

/-- The code of element `k` of line `i`: lines stand at a pitch of 64 bytes. -/
def opCode (f : BitVec 4) (d : VReg) (i k : Nat) : Nat :=
  (d.extractLsb' (512 * i + mmaBits f * k) (mmaBits f)).toNat

def zByte (z : ZReg) (b : Nat) : Nat := (z.extractLsb' (8 * b) 8).toNat

/-- The value of element `k` of line `i` with its block scale. -/
def opElem (f : BitVec 4) (d : VReg) (z : ZReg) (i k : Nat) : MElem :=
  let c := opCode f d i k
  let plain (g : FFmt) : MElem := ⟨g.decode c, (g.decode c).isSNan⟩
  let scaled (g : FFmt) : MElem :=
    let sb := zByte z (2 * i + k / 32)
    if sb = 0xFF then ⟨.nan false, true⟩ else ⟨scaleNum (g.decode c) ((sb : Int) - 127), false⟩
  match f.toNat with
  | 0 => plain bf16
  | 1 => plain fp16
  | 2 => scaled e4m3
  | 3 => scaled e5m2
  | 4 => scaled e3m2
  | 5 => scaled e2m3
  | 6 =>
    let sb := zByte z (8 * i + 2 * (k / 32))
    let sp := zByte z (8 * i + 2 * (k / 32) + 1)
    if sb = 0xFF ∨ (e4m3.decode sp).isNan then ⟨.nan false, true⟩
    else ⟨scaleNum (sb4Num c sp) ((sb : Int) - 127), false⟩
  | _ => plain fp32

/-- One accumulator element after an mma (R330). -/
def mmaOne (r : MmaRun) (acc : AccV) (e : Nat) : Nat × KF :=
  let i := e / 64
  let j := e % 64
  let ks := List.range (mmaK r.fa)
  let a0 := (elemAt 32 acc e).toNat
  if r.fa = 7 then (mmaInt a0 (ks.map fun k => (opCode 7 r.capA i k, opCode 7 r.capB j k)), 0)
  else mmaElem a0 (ks.map fun k => (opElem r.fa r.capA r.sa i k, opElem r.fb r.capB r.sb j k))

/-- The accumulator and the flags after an mma. -/
def mmaAll (r : MmaRun) (acc : AccV) : AccV × KF :=
  (joinE 32 (fun e => BitVec.ofNat 32 (mmaOne r acc e).1) 4096,
    orFlags ((List.range 4096).map fun e => (mmaOne r acc e).2))

/-! ## Landing -/

/-- A result that belongs to one cluster lands (R97). -/
def landCl (f : Landing) (k : KCluster) : KCluster :=
  match f with
  | .vreg r d m => { k with v := k.v.set r (merge k.v[r] d m) }
  | .areg r v => k.aPut r.val v
  | .pred p b => k.pPut p.val b
  | .maskReg m d w => { k with m := k.m.set m (merge k.m[m] d w) }
  | .zreg z d w => { k with z := k.z.set z (merge k.z[z] d w) }
  | .opm o d => { k with opm := k.opm.set o d }
  | .opmState o st => { k with opmSt := k.opmSt.set o st }
  | .mma r =>
    let x := mmaAll r (k.accGet r.acc)
    (k.accPut r.acc x.1).flag x.2
  | .accZero a =>
    let k1 := k.accPut a 0
    if h : a.toNat < 6 then { k1 with tsr := k1.tsr.set a.toNat 0 } else k1
  | .tsr a b => if h : a.toNat < 6 then { k with tsr := k.tsr.set a.toNat (k.tsr[a.toNat] ||| b) } else k
  | .srf .. => k
  | .lcset .. => k
  | .lend _ => k

/-- Applies a function to every cluster. -/
def KEngine.mapCl (e : KEngine) (f : ClId → KCluster → KCluster) : KEngine :=
  { e with cl := Vector.ofFn fun c => f c e.cl[c] }

def Sp.modKe (p : Sp) (f : KEngine → KEngine) : Sp := { p with ke := f p.ke }
def State.modKe (s : State) (sp : SpId) (f : KEngine → KEngine) : State := s.modSp sp fun p => p.modKe f

/-- Sets p8 to p15 of a predicate word. -/
def stagePreds (p : BitVec 16) (hi : BitVec 8) : BitVec 16 := (p &&& 0x00FF) ||| (hi.setWidth 16 <<< 8)

/-- R313: what lcset does when it lands. -/
def lcsetLand (e : KEngine) (n : W32) (st : BitVec 8) : KEngine :=
  let first : Bool := n != 0
  let e1 := e.mapCl fun _ k => { k with p := stagePreds k.p (if first then 0x80 else 0) }
  if first then
    { e1 with nst := st, nit := n - 1, nps := n.setWidth 40 + st.setWidth 40 - 1 }
  else { e1 with nst := st, nit := 0, nps := 1 }

/-- One result in flight lands. -/
def landOne (s : State) (sp : SpId) (f : InFlight) : State :=
  match f.what with
  | .srf t off d => s.modSp t fun p => (p.setTile off d 32).setFullRange off true 32
  | .lcset n st => s.modKe sp fun e => lcsetLand e n st
  | .lend b => s.modKe sp fun e => { e with lent := b }
  | w => s.modKe sp fun e => { e with cl := e.cl.set f.cl (landCl w e.cl[f.cl]) }

/-- Results due at the step the counter stands at land in the order of their issue, so that the later-issued one stays
(R97); of two results of one bundle, the one of the slot that comes later in R90 (log 120). -/
def landDue (s : State) (sp : SpId) : State :=
  let e := (s.sp sp).ke
  let due := e.infl.filter fun f => decide (f.land ≤ e.stepNo)
  let rest := e.infl.filter fun f => !decide (f.land ≤ e.stepNo)
  due.foldl (fun t f => landOne t sp f) (s.modKe sp fun x => { x with infl := rest })

/-- The multiplier reads its parts of this step, after the landings of the step (R328, R331). -/
def readParts (e : KEngine) : KEngine :=
  { e with infl := e.infl.map fun f =>
      match f.what with
      | .mma r => { f with what := .mma (r.read e.cl[f.cl] e.stepNo) }
      | _ => f }

/-- Every result in flight lands at once, parts not yet read included: a kernel whose task has ended still performs what
it has issued (R108). -/
def landRest : Nat → State → SpId → State
  | 0, s, _ => s
  | n + 1, s, sp =>
    if (s.sp sp).ke.infl.isEmpty then s
    else
      let s1 := (landDue s sp).modKe sp readParts
      landRest n (s1.modKe sp fun e => { e with stepNo := e.stepNo + 1 }) sp

end Sys2Proof.Machine
end

