-- ==== Sys2Proof/Machine/Send.lean ====
section
/-! DEFINITION. Sending a Sahat request (R161, R165, R166): type, station, tag, SEQ, open transaction. -/

namespace Sys2Proof.Machine

open Sys2Proof

/-- FABTIME.LIMIT in ns (R172). -/
def fabLimit (s : State) : Nat := bits s.dev.fabtime.toNat 0 24 * 1000

def tREAD : BitVec 6 := 1
def tRDATA : BitVec 6 := 2
def tPWR : BitVec 6 := 3
def tNPWR : BitVec 6 := 4
def tFEWR : BitVec 6 := 5
def tATOM : BitVec 6 := 6
def tADATA : BitVec 6 := 7
def tACK : BitVec 6 := 8
def tNAK : BitVec 6 := 9

def stationsUp (s : State) : List StId := (List.finRange 16).filter fun i => s.dev.lanes[i] != 0

/-- R166: the station of a request. An ORD packet stays on the station of the stream's ORD packets that are still
open. An accelerator ID that the domain lacks is reached by no station (R171; log 28); a request to this device's own ID
does not leave the chip (R169), and station 0 stands for it. -/
def chooseStation (s : State) (ord : Bool) (ssid : BitVec 16) (dst : BitVec 11) (addr : Nat) : Option StId :=
  let up := stationsUp s
  let stay := s.dev.txns.find? fun t => ord && t.h.ord && t.h.ssid = ssid && t.h.dst = dst
  match stay with
  | some t => some t.st
  | none =>
    if dst = s.dev.accId then some 0
    else if up.isEmpty || s.dev.absent.contains dst then none
    else up[(ssid.toNat + (if ord then dst.toNat else addr / 256 % 256)) % up.length]?

/-- The lowest tag not in use from `t`; `fuel` tags are tried. -/
def freeTag (used : List (BitVec 12)) (t : Nat) : Nat → Option (BitVec 12)
  | 0 => none
  | n + 1 => if used.contains (BitVec.ofNat 12 t) then freeTag used (t + 1) n else some (BitVec.ofNat 12 t)

/-- FREE VALUE (log 115). A packet has waited at the arbiters between its unit and its station, of the die network and the memory
controllers, for a number of ticks that is timing; OVD is set when they have used its slack up (R178 to R180). -/
def dieWait (tick : Nat) (h : SahatHdr) : SahatHdr :=
  let n := (Config.freeWord tick (2 ^ 20 + h.seq.toNat * 2 ^ 16 + h.ssid.toNat)).toNat % 4096
  let k : BitVec 12 := BitVec.ofNat 12 (h.slack.toNat - n)
  { h with slack := k, ovd := h.ovd || k = 0 }

/-- A packet enters the arbiter of its station (R178; its inputs: log 99). -/
def enqueue (s : State) (st : StId) (h : SahatHdr) (d : List Byte) : State :=
  s.modDev fun v =>
    { v with arb := v.arb.set st { v.arb[st] with
        wait := v.arb[st].wait ++ [⟨dieWait s.tick h, d, h.ssid.toNat / 256, s.time⟩] } }

/-- What came of an attempt to send a request. -/
inductive Sent where
  | ok (tag : BitVec 12) (s : State)
  /-- Every tag of the stream is in use (R175). -/
  | wait
  /-- No station is up (R171). -/
  | unreachable

/-- Sends a request (R161, R165, R166): its tag, its header, its open transaction. Packets to this device's own ID are
looped back: they stand in `held` and are performed as requests (R169). -/
def sendReq (s : State) (who : Issuer) (ctx : CtxId) (ssid : BitVec 16) (typ : BitVec 6) (aop : BitVec 4)
    (dst : BitVec 11) (key : W32) (addr len : Nat) (slack : BitVec 12) (ord : Bool) (d : List Byte) : Sent :=
  let used := (s.dev.txns.filter fun t => t.h.ssid = ssid).map fun t => t.h.tag
  match chooseStation s ord ssid dst addr, freeTag used 0 4096 with
  | none, _ => .unreachable
  | _, none => .wait
  | some st, some tag =>
    let h : SahatHdr :=
      { typ := typ, aop := aop, dst := dst, src := s.dev.accId, stn := BitVec.ofNat 4 st.val, tag := tag
        slack := slack, ovd := slack = 0, ord := ord, res0 := 0, key := key, len := BitVec.ofNat 8 (len - 1)
        cause := 0, res1 := 0, addr := BitVec.ofNat 57 addr, res2 := 0, ssid := ssid, seq := nextSeq s ssid }
    let t : Txn := ⟨h, st, s.time, fabLimit s, who, ctx⟩
    let s1 := s.modDev fun v =>
      { v with txns := v.txns ++ [t], seqs := assocSet v.seqs ssid (nextSeq s ssid) }
    .ok tag
      (if dst = s.dev.accId then
        s1.modDev fun v => { v with held := v.held ++ [⟨h, d, s.time, 0, false, false⟩] }
      else enqueue s1 st h d)

/-- A write that `sendOwed` sends once a tag is free (R175). -/
def State.owe (s : State) (o : Owed) : State := s.modDev fun d => { d with owed := d.owed ++ [o] }

end Sys2Proof.Machine
end

