-- ==== Sys2Proof/Machine/Template.lean ====
section
/-! DEFINITION. Copy templates (R81), their checks (R83), the loop order of a copy (R82), and the lines that an issue
empties (R69). -/

namespace Sys2Proof.Machine

open Sys2Proof

/-- The template in 64 bytes (R81). -/
def parseTemplate (b : List Byte) : Template :=
  let w0 := field b 0 8
  let cnt := field b 8 8
  let q (off : Nat) : W32 := BitVec.ofNat 32 (field b off 4)
  let w7 := field b 56 8
  { kind := BitVec.ofNat 4 w0, esize := BitVec.ofNat 3 (bits w0 4 3), slkc := BitVec.ofNat 2 (bits w0 8 2)
    slkx := bit w0 10, consume := bit w0 11, evt := bit w0 12, slack := BitVec.ofNat 12 (bits w0 16 12)
    cnt := #v[BitVec.ofNat 16 cnt, BitVec.ofNat 16 (cnt / 2 ^ 16), BitVec.ofNat 16 (cnt / 2 ^ 32),
      BitVec.ofNat 16 (cnt / 2 ^ 48)]
    sbase := BitVec.ofNat 64 (field b 16 8), dbase := BitVec.ofNat 64 (field b 24 8)
    sstr := #v[q 32, q 36, q 40], dstr := #v[q 44, q 48, q 52]
    idx := BitVec.ofNat 23 w7, qp := BitVec.ofNat 16 (bits w7 32 16)
    resOk := bits w0 7 1 = 0 && bits w0 13 3 = 0 && bits w0 28 36 = 0 && bits w7 23 9 = 0 && bits w7 48 16 = 0 }

def Template.eb (t : Template) : Nat := 2 ^ t.esize.toNat
def Template.c (t : Template) (i : Fin 4) : Nat := t.cnt[i].toNat
/-- LOAD, GATHER and BGATHER write F; the others read it (R82). -/
def Template.writesF (t : Template) : Bool := t.kind = 0 || t.kind = 2 || t.kind = 5

/-- Whether level `k + 1`'s source or destination stride is used (R83). -/
def Template.usesS (t : Template) (k : Fin 3) : Bool :=
  decide (t.c k.succ > 1) || (t.kind = 2 && k = 0) || (t.kind = 5 && k = 1)
def Template.usesD (t : Template) (k : Fin 3) : Bool :=
  decide (t.c k.succ > 1) || ((t.kind = 3 || t.kind = 4) && k = 0)

/-- R83: the template's own checks, but for the queue pair of NET. The alignment of IDX (R81) is checked for the kinds that
use an index list (log 107). -/
def Template.ok (t : Template) : Bool :=
  let e := t.eb
  let fbase := if t.writesF then t.dbase else t.sbase
  let idxUsed := t.kind = 2 || t.kind = 3 || t.kind = 4 || t.kind = 5
  t.resOk && decide (t.kind.toNat ≤ 6) && decide (t.esize.toNat ≤ 3)
    && t.c 0 != 0 && t.c 1 != 0 && t.c 2 != 0 && t.c 3 != 0
    && t.sbase.toNat % e = 0 && t.dbase.toNat % e = 0
    && (List.finRange 3).all (fun k => (!t.usesS k || t.sstr[k].toNat % e == 0)
        && (!t.usesD k || t.dstr[k].toNat % e == 0))
    && (t.kind != 4 || t.esize = 2)
    && (!(t.kind = 2 || t.kind = 3 || t.kind = 4) || (t.c 2 = 1 && t.c 3 = 1))
    && (t.kind != 5 || t.c 3 = 1)
    && !(decide (0x1000_0000 ≤ fbase.toNat) && decide (fbase.toNat < 0x2000_0000))
    && (!idxUsed || t.idx.toNat % 4 = 0)

/-- R83: a NET copy names a queue pair of the context. -/
def qpOk (s : State) (ctx : CtxId) (t : Template) : Bool :=
  t.kind != 6 || (decide (t.qp.toNat < 0x4000)
    && ((assoc? s.dev.qps (t.qp.setWidth 14)).map fun q => decide (q.ctx = ctx)).getD false)

def templateOk (s : State) (ctx : CtxId) (t : Template) : Bool := t.ok && qpOk s ctx t

/-- Elements of the copy, and its bytes. -/
def Template.elems (t : Template) : Nat := t.c 0 * t.c 1 * t.c 2 * t.c 3
def Template.bytes (t : Template) : Nat := t.elems * t.eb

/-- Rows (runs of COUNT0 elements) are numbered in loop order. -/
def Template.rows (t : Template) : Nat := t.c 1 * t.c 2 * t.c 3
def Template.i1 (t : Template) (row : Nat) : Nat := row % t.c 1
def Template.i2 (t : Template) (row : Nat) : Nat := row / t.c 1 % t.c 2
def Template.i3 (t : Template) (row : Nat) : Nat := row / (t.c 1 * t.c 2)

/-- The index list entry that a row needs (R82): its number. -/
def Template.idxOf (t : Template) (row : Nat) : Option Nat :=
  if t.kind = 2 ∨ t.kind = 3 ∨ t.kind = 4 then some (t.i1 row)
  else if t.kind = 5 then some (t.i2 row)
  else none

/-- Source address of the first element of a row (R82); `x` is its index list entry. -/
def Template.src (t : Template) (param : W32) (row : Nat) (x : Nat) : W64 :=
  let st (k : Fin 3) : Int := t.sstr[k].toInt
  let k2 : Int := if t.kind = 5 then (x : Int) else (t.i2 row : Int)
  let k1 : Int := if t.kind = 2 then (x : Int) else (t.i1 row : Int)
  t.sbase + BitVec.ofInt 64 (param.toInt * t.eb + t.i3 row * st 2 + k2 * st 1 + k1 * st 0)

/-- Destination address of the first element of a row (R82). -/
def Template.dst (t : Template) (row : Nat) (x : Nat) : W64 :=
  let st (k : Fin 3) : Int := t.dstr[k].toInt
  let k1 : Int := if t.kind = 3 ∨ t.kind = 4 then (x : Int) else (t.i1 row : Int)
  t.dbase + BitVec.ofInt 64 (t.i3 row * st 2 + t.i2 row * st 1 + k1 * st 0)

/-- The lines, as F addresses, of `n` bytes at an F address (modulo 2^64). -/
def lineAddrs (a : W64) (n : Nat) : List Nat :=
  (List.range ((a.toNat % 128 + n + 127) / 128)).map fun i => (a.toNat / 128 * 128 + 128 * i) % 2 ^ 64

/-- Changes the bit of the line at an F address if it is local or in a seat window, below A (R69). -/
def setLineAt (s : State) (me : SpId) (b : Bool) (a : Nat) : State :=
  match s.fDecode me a with
  | .srf sp off => s.modSp sp fun p => p.setFull off b
  | _ => s

/-- Every line that holds a destination byte of the first `n` rows becomes empty (R69). -/
def emptyRows (s : State) (me : SpId) (t : Template) : Nat → State
  | 0 => s
  | n + 1 =>
    (lineAddrs (t.dst n 0) (t.c 0 * t.eb)).foldl (fun z a => setLineAt z me false a) (emptyRows s me t n)

/-- The issue of a copy that writes F empties its destination lines (R69, R357). -/
def emptyDest (s : State) (me : SpId) (t : Template) : State :=
  if t.writesF && templateOk s (s.sp me).id.ctx t then emptyRows s me t t.rows else s

/-- TTBASE: the table, and the address of template `ti` (R80). -/
def templateAddr (tb : W64) (ti : BitVec 16) : Nat := bits tb.toNat 16 40 * 2 ^ 16 + 64 * ti.toNat
def templateIn (tb : W64) (ti : BitVec 16) : Bool := decide (ti.toNat ≤ tb.toNat % 2 ^ 16)

end Sys2Proof.Machine
end

