-- ==== Sys2Proof/Machine/Copies.lean ====
section
/-! DEFINITION. Atomic operations (R148, R163, R284), the adds of a SADD copy (R82, R134), and how the running copies of an SP
stop at an element boundary (R210, R218, R421). -/

namespace Sys2Proof.Machine

open Sys2Proof

/-! ## Atomic operations (R148, R163, R284) -/

/-- The new value of a unit of `w` bits: codes 0 to 10 of R284 and R163. -/
def amoNew (code : BitVec 4) (w old opnd new : Nat) : Nat :=
  let so := intVal w true old
  let sp := intVal w true opnd
  match code.toNat with
  | 0 => (old + opnd) % 2 ^ w
  | 1 => if sp < so then opnd else old
  | 2 => if so < sp then opnd else old
  | 3 => if opnd < old then opnd else old
  | 4 => if old < opnd then opnd else old
  | 5 => old &&& opnd
  | 6 => old ||| opnd
  | 7 => old ^^^ opnd
  | 8 => opnd
  | 9 => if old = opnd then new else old
  | _ => (fp32.add .rne old opnd).1

/-! ## The adds of a SADD copy (R82, R134) -/

/-- One add at the channel controller; it stands with its offset in loop order and its physical address. -/
def addOne (s : State) (x : Nat × Nat × List Byte) : State :=
  s.physWrite x.2.1 (leBytes 4 (amoNew 10 32 (leNat (s.physRead x.2.1 4)) (leNat x.2.2) 0))

/-- FREE VALUE (log 108). The adds in flight of a copy that stops are performed; every order is allowed (R134). -/
def addRest : Nat → State → List (Nat × Nat × List Byte) → State
  | 0, s, _ => s
  | n + 1, s, l =>
    match l[(Config.freeWord s.tick (6001 + n)).toNat % l.length]? with
    | none => s
    | some x => addRest n (addOne s x) (l.erase x)

/-! ## Copies that stop (R210, R218, R421) -/

def copySlack (r : CopyRun) : BitVec 12 :=
  match r.t with
  | some t => if t.slkx then t.slack else r.op.slack
  | none => r.op.slack

/-- Bytes of a row. -/
def Template.rowBytes (t : Template) : Nat := t.c 0 * t.eb

/-- The bytes that are missing of an element of which a packet has sent a first part: a packet ends at a 256-byte block of its
address, which need not be an element boundary (R161). -/
def CopyRun.elemLeft (r : CopyRun) (t : Template) : Nat := (t.eb - r.pos % t.eb) % t.eb

/-- The rest of that element follows: the copy stops at the boundary behind it. -/
def finishElement (s : State) (sp : SpId) (ch : ChId) (r : CopyRun) (t : Template) : State :=
  let n := r.elemLeft t
  let ctx := (s.sp sp).id.ctx
  let da := (t.dst (r.pos / t.rowBytes) ((r.ent.map Prod.snd).getD 0)).toNat + r.pos % t.rowBytes
  if n = 0 ∨ r.ahead.length < n then s
  else
    match translate s (.sp sp) ctx da .write (.copy (t.kind == 4)) with
    | .error _ => s
    | .ok lf =>
      if lf.kind = 1 then
        let (acc, key, addr) := lf.remote da
        s.owe ⟨.gone, ssidChan sp ch, copySlack r, acc, key, addr, ctx, r.ahead.take n⟩
      else s

/-- A running copy stops: its adds in flight are performed, and the element begun is finished. -/
def stopCopy (sp : SpId) (s : State) (ch : ChId) : State :=
  match (s.sp sp).str.chans[ch].run with
  | none => s
  | some r =>
    let s1 := addRest r.adds.length s r.adds
    match r.t with
    | none => s1
    | some t => finishElement s1 sp ch r t

def stopCopies (s : State) (sp : SpId) : State := (List.finRange 16).foldl (stopCopy sp) s

end Sys2Proof.Machine
end

