-- ==== Sys2Proof/Machine/Curves.lean ====
section
/-! DEFINITION. The index space of a GRID launch and its traversal curves (R43, R44), and what is left of a range (R49). -/

namespace Sys2Proof.Machine

open Sys2Proof

/-- `ceil(log2 n)`. -/
def clog2 (n : Nat) : Nat := if n ≤ 1 then 0 else Nat.log2 (n - 1) + 1

/-- The index-space size M (R43, R44). -/
def LRec.space (r : LRec) : Nat :=
  if r.order = 2 then 2 ^ (clog2 r.x.toNat + clog2 r.y.toNat + clog2 r.z.toNat + clog2 r.w.toNat)
  else r.x.toNat * r.y.toNat * r.z.toNat * r.w.toNat

structure Tile where
  x : Nat
  y : Nat
  z : Nat
  w : Nat
  deriving DecidableEq, Repr

/-- Deals the bits of an index to the four coordinates (R44): `j` counts up to 16, `k` is the next bit of `i`. -/
def mortonDeal (i : Nat) (b : Nat × Nat × Nat × Nat) : Nat → Nat → Nat → Tile → Tile
  | 0, _, _, t => t
  | n + 1, j, k, t =>
    let put (c bs v k : Nat) : Nat × Nat := if j < bs then (v + c * (i / 2 ^ k % 2), k + 1) else (v, k)
    let (x, k1) := put (2 ^ j) b.1 t.x k
    let (y, k2) := put (2 ^ j) b.2.1 t.y k1
    let (z, k3) := put (2 ^ j) b.2.2.1 t.z k2
    let (w, k4) := put (2 ^ j) b.2.2.2 t.w k3
    mortonDeal i b n (j + 1) k4 ⟨x, y, z, w⟩

/-- The coordinates of a linear index, or a hole (R43, R44). -/
def LRec.tile (r : LRec) (i : Nat) : Option Tile :=
  let X := r.x.toNat
  let Y := r.y.toNat
  let Z := r.z.toNat
  let W := r.w.toNat
  match r.order.toNat with
  | 0 => some ⟨i % X, i / X % Y, i / (X * Y) % Z, i / (X * Y * Z)⟩
  | 1 => some ⟨i / (W * Z * Y), i / (W * Z) % Y, i / W % Z, i % W⟩
  | 2 =>
    let t := mortonDeal i (clog2 X, clog2 Y, clog2 Z, clog2 W) 16 0 0 ⟨0, 0, 0, 0⟩
    if t.x < X ∧ t.y < Y ∧ t.z < Z ∧ t.w < W then some t else none
  | _ =>
    let flip (v n h : Nat) : Nat := if h % 2 = 0 then v else n - 1 - v
    let h1 := i / X
    let h2 := h1 / Y
    let h3 := h2 / Z
    some ⟨flip (i % X) X h1, flip (h1 % Y) Y h2, flip (h2 % Z) Z h3, h3⟩

/-- The first index from `next` below `stop` that is a tile; `fuel` indices are tried. -/
def LRec.nextTile (r : LRec) (stop : Nat) : Nat → Nat → Option (Nat × Tile)
  | 0, _ => none
  | n + 1, i =>
    if i ≥ stop then none
    else
      match r.tile i with
      | some t => some (i, t)
      | none => r.nextTile stop n (i + 1)

/-- A tile is left of a range (R49, R58); holes are none. -/
def LRec.tileLeft (r : LRec) (next stop : Nat) : Bool := (r.nextTile stop (stop - next) next).isSome

end Sys2Proof.Machine
end

