-- ==== Sys2Proof/Machine/Tasks.lean ====
section
/-! DEFINITION. Gangs, tasks and launches: continuation records (R26), task records (R53, R55), failure and poisoning
(R24, R57, R421), the end of a launch (R56, R58), and the delivery of a strand's fault (R198, R425). -/

namespace Sys2Proof.Machine

open Sys2Proof

/-! ## Shootdowns (R205) -/

/-- Every SP and every die's L2 TLB (which its Dealer uses), walkers with it. -/
def allUnits : List TlbUnit := (List.finRange 68).map TlbUnit.sp ++ (List.finRange 4).map TlbUnit.die

/-- Issues a shootdown of a range; `frees` are the frames that fall free when it completes. -/
def startShootdown (s : State) (ctx : CtxId) (lo hi : Nat) (frees : List Nat) : State :=
  s.modDev fun d =>
    { d with shoots := d.shoots ++ [⟨d.shootNum + 1, ctx, lo, hi, allUnits, frees⟩], shootNum := d.shootNum + 1 }

def dropEntries (ctx : CtxId) (lo hi : Nat) (l : List TlbEntry) : List TlbEntry :=
  l.filter fun e => !(e.ctx = ctx && decide (e.base < hi) && decide (lo < e.base + e.psize))

/-! ## The device area (R428; log 11) -/

def devAreaBase : Nat := 0x00FF_FF00_0000_0000
def devAreaBytes : Nat := 0x100_0000_0000

/-- Takes `n` bytes of the device area at a multiple of `al`. When none are free, the address is the end of G-space, where
every write of the device is dropped. -/
def devReserve (s : State) (ctx : CtxId) (al n : Nat) : State × W64 :=
  match lowestFit (s.ctx ctx).devUsed 0 devAreaBytes al n with
  | none => (s, BitVec.ofNat 64 (2 ^ 56))
  | some off => (s.modCtx ctx fun c => { c with devUsed := (off, n) :: c.devUsed }, BitVec.ofNat 64 (devAreaBase + off))

/-- Maps one 4 KiB page of the device area, NORMAL RC INTERLEAVED with W = 0 and X = 0, if it is not mapped. -/
def mapDevPage (s : State) (ctx : CtxId) (va : Nat) : State :=
  if mapped s ctx va then s
  else
    match allocZero s 0x1000 with
    | none => s
    | some (f, s1) => (setRun s1 (rootTable (s1.ctx ctx)) va 3 (f + 0x13) 1).getD s

def mapDevPages (s : State) (ctx : CtxId) (va : Nat) : Nat → State
  | 0 => s
  | n + 1 => mapDevPage (mapDevPages s ctx va n) ctx (va + 0x1000 * n)

/-- Maps what is not mapped of `n` bytes at `va`, followed by a shootdown of the pages (R205). -/
def mapDevRange (s : State) (ctx : CtxId) (va n : Nat) : State :=
  let lo := va / 0x1000 * 0x1000
  let k := (va + n - 1) / 0x1000 - va / 0x1000 + 1
  if !(decide (devAreaBase ≤ va) && decide (va + n ≤ devAreaBase + devAreaBytes))
    || (List.range k).all (fun i => mapped s ctx (lo + 0x1000 * i)) then s
  else startShootdown (mapDevPages s ctx lo k) ctx lo (lo + 0x1000 * k) []

/-- Takes `n` bytes of the device area and maps them. -/
def devAlloc (s : State) (ctx : CtxId) (al n : Nat) : State × W64 :=
  let (s1, va) := devReserve s ctx al n
  (mapDevRange s1 ctx va.toNat n, va)

/-- Clears the entry of a page of the device area; its frame joins `x.2`. -/
def clearDevPage (ctx : CtxId) (x : State × List Nat) (va : Nat) : State × List Nat :=
  match walk x.1 ctx va with
  | .error _ => x
  | .ok l => ((setRun x.1 (rootTable (x.1.ctx ctx)) va 3 0 1).getD x.1, x.2 ++ [pteFrame l.pte])

/-- A block of the device area falls free. -/
def devFree (s : State) (ctx : CtxId) (va : W64) : State :=
  s.modCtx ctx fun c => { c with devUsed := c.devUsed.filter fun u => devAreaBase + u.1 != va.toNat }

/-- The bytes that a save area may take (log 11). -/
def saveBytes : Nat := 0x0200_0000

/-- A save area falls free with its pages, whose frames are free after the shootdown (R205, R428). -/
def freeSave (s : State) (ctx : CtxId) (va : W64) : State :=
  if va = 0 then s
  else
    let a := va.toNat
    let x := ((List.range (saveBytes / 0x1000)).map fun i => a + 0x1000 * i).foldl (clearDevPage ctx) (s, [])
    devFree (if x.2.isEmpty then x.1 else startShootdown x.1 ctx a (a + saveBytes) x.2) ctx va

/-- The device writes to a context's memory; a fault drops the write. -/
def devPut (s : State) (ctx : CtxId) (va : W64) (d : List Byte) : State :=
  match devWrite s ctx va.toNat d with
  | .ok t => t
  | .error _ => s

/-! ## Writes of the launch engine (R165, R175) -/

/-- Sends what is owed while tags are free, each stream's writes in order; a write whose target cannot be reached is lost
(log 100). -/
def flushOwed : List Owed → State → State
  | [], s => s
  | o :: l, s =>
    match sendReq s o.who o.ctx o.ssid tPWR 0 o.acc o.key o.addr o.data.length o.slack false o.data with
    | .ok _ t => flushOwed l t
    | .unreachable => flushOwed l s
    | .wait => flushOwed l (s.owe o)

def sendOwed (s : State) : State := flushOwed s.dev.owed (s.modDev fun d => { d with owed := [] })

/-- The launch engine writes at `va`, in packets where the page is REMOTE; a fault drops the rest (log 94). -/
def engineWrite (die : DieId) (slack : BitVec 12) (ctx : CtxId) : Nat → State → Nat → List Byte → State
  | 0, s, _, _ => s
  | fuel + 1, s, va, d =>
    if d.isEmpty then s
    else
      match translate s .none ctx va .write .device with
      | .error _ => s
      | .ok lf =>
        let n := min d.length (lf.room va)
        let s1 :=
          if lf.kind = 1 then
            let (acc, key, addr) := lf.remote va
            s.owe ⟨.engine die, ssidEngine die, slack, acc, key, addr, ctx, d.take n⟩
          else (s.chip ctx (ssidEngine die) slack (blocks va n)).physWrite (lf.pa va) (d.take n)
        engineWrite die slack ctx fuel s1 (va + n) (d.drop n)

/-- The slack of the packets a launch causes (R40, R176). -/
def Launch.slack (s : State) (l : Launch) : BitVec 12 := (s.ctx l.ctx).slkDef[l.r.slkc.toFin]

/-- The launch engine of the launch's die writes to its records (R165). -/
def enginePut (s : State) (l : Launch) (va : Nat) (d : List Byte) : State :=
  sendOwed (engineWrite l.lastDie (l.slack s) l.ctx d.length s va d)

/-! ## Continuation records (R26) -/

def StStatus.code : StStatus → Nat
  | .new => 1
  | .running => 2
  | .suspended => 3
  | .blocked => 4
  | .faulted => 5
  | .parked => 6
  | .done => 7
  | .failed => 8
  | .lostAtSave => 9

/-- The 64 bytes of a seat's record; `kind` is 0 for a GRID task and 1 for a GRAPH task. -/
def contRecord (g : Gang) (n : Nat) (q : Seat) (kind glog : Nat) (launchId : W32) : List Byte :=
  leBytes 8 q.pc.toNat
    ++ leBytes 8 (q.status.code + kind * 2 ^ 8 + q.cause.toNat * 2 ^ 12 + n * 2 ^ 22 + glog * 2 ^ 26
        + (if q.rb then 2 ^ 29 else 0) + q.ckoff.toNat * 2 ^ 32)
    ++ leBytes 8 (g.x.toNat + g.y.toNat * 2 ^ 16 + g.z.toNat * 2 ^ 32 + g.w.toNat * 2 ^ 48)
    ++ leBytes 8 g.args.toNat ++ leBytes 8 q.save.toNat ++ leBytes 8 q.ckpc.toNat
    ++ leBytes 8 (launchId.toNat + g.tindex.toNat * 2 ^ 32) ++ leBytes 8 q.seq.toNat

/-- Writes the record of seat `n` to memory. -/
def writeRecord (s : State) (gi n : Nat) : State :=
  match s.gang? gi with
  | none => s
  | some g =>
    match g.seats[n]?, s.launch? g.launch with
    | some q, some l => devPut (s.chipFront g.ctx g.die q.recAt.toNat 64) g.ctx q.recAt (contRecord g n q l.r.kind.toNat l.r.glog.toNat l.r.launchId)
    | _, _ => s

def writeRecords (s : State) (gi : Nat) : Nat → State
  | 0 => s
  | n + 1 => writeRecord (writeRecords s gi n) gi n

def Gang.size (g : Gang) : Nat := g.seats.length

/-- Changes every seat of a gang. -/
def State.modSeats (s : State) (gi : Nat) (f : Seat → Seat) : State :=
  s.modGang gi fun g => { g with seats := g.seats.map f }

/-! ## Task records in memory (R53) -/

def TaskStatus.code : TaskStatus → Nat
  | .waiting => 0
  | .ready => 1
  | .running => 2
  | .suspended => 3
  | .done => 4
  | .failed => 5
  | .poisoned => 6

/-- Writes DEPCNT, STATUS, NSUCC and CAUSE of a task record (R53). The device's own writes do not heed W (log 94). -/
def writeTask (s : State) (li idx : Nat) : State :=
  match s.launch? li with
  | none => s
  | some l =>
    match l.tasks[idx]? with
    | none => s
    | some t =>
      enginePut s l (l.r.tasks.toNat + 64 * idx + 8)
        (leBytes 8 (t.dep.toNat + t.status.code * 2 ^ 32 + t.nsucc.toNat * 2 ^ 40 + t.cause.toNat * 2 ^ 48))

def modTask (s : State) (li idx : Nat) (f : Task → Task) : State :=
  writeTask (s.modLaunch li fun l => { l with tasks := modList f l.tasks idx }) li idx

def modTasks (s : State) (li : Nat) (f : Task → Task) : List Nat → State
  | [] => s
  | i :: l => modTasks (modTask s li i f) li f l

/-- The launch is served by a die from now on, whose launch engine makes its packets (R165). -/
def servedBy (s : State) (li : Nat) (die : DieId) : State := s.modLaunch li fun l => { l with lastDie := die }

/-! ## The end of a launch -/

/-- A progress event of the context (R220). -/
def progress (s : State) (ctx : CtxId) : State := s.modCtx ctx fun c => { c with progress := s.time }

/-- The first cause recorded stays (R58). -/
def recordCause (s : State) (li : Nat) (c : Cause) : State :=
  s.modLaunch li fun l => { l with badTask := true, cause := if l.cause = 0 then c else l.cause }

def Walker.holds (w : Walker) (li : Nat) : Bool :=
  match w with
  | .active l _ _ => l == li
  | .frozen l _ _ => l == li
  | _ => false

/-- A walker's range, if it has one: launch, next index and end. -/
def Walker.range : Walker → Option (Nat × Nat × Nat)
  | .active l n e => some (l, n, e)
  | .frozen l n e => some (l, n, e)
  | _ => none

/-- Frees every walker that holds the launch, and drops its captured and granted ranges (R49). -/
def clearWalkers (s : State) (li : Nat) : State :=
  { s with
    dies := s.dies.map fun d => { d with walkers := d.walkers.map fun w => if w.holds li then .free else w }
    ctxs := s.ctxs.map fun c => { c with saved := c.saved.filter fun w => w.launch != li }
    dev := { s.dev with grants := s.dev.grants.map fun g =>
      { g with range := g.range.bind fun r => if r.1 = li then none else some r } } }

/-- The ranges of every launch, wherever they stand: at walkers, granted, captured (R49, R50, R52). -/
def allRanges (s : State) : List (Nat × Nat × Nat) :=
  s.dies.toList.flatMap (fun d => d.walkers.toList.filterMap Walker.range)
    ++ s.dev.grants.filterMap SplitGrant.range
    ++ s.ctxs.toList.flatMap fun c => c.saved.map fun w => (w.launch, w.next, w.stop)

/-- Whether some tile of the launch is still to be handed out; what holds holes only hands out none (R49). -/
def hasRange (s : State) (li : Nat) : Bool :=
  match s.launch? li with
  | none => false
  | some l => (allRanges s).any fun r => r.1 == li && l.r.tileLeft r.2.1 r.2.2

def hasGang (s : State) (li : Nat) : Bool := s.gangs.any fun g => g.live && g.launch == li

/-- R58: every task is DONE, FAILED or POISONED; for GRID, every tile has been handed out and has ended. -/
def isFinal (s : State) (li : Nat) : Bool :=
  match s.launch? li with
  | none => false
  | some l =>
    if l.r.kind = 1 then l.tasks.all fun t => t.status = .done || t.status = .failed || t.status = .poisoned
    else !hasRange s li && !hasGang s li

/-- R56: none READY, RUNNING or SUSPENDED, and one WAITING. -/
def isStalled (l : Launch) : Bool :=
  l.r.kind = 1 && l.tasks.any (fun t => t.status = .waiting)
    && l.tasks.all fun t => t.status != .ready && t.status != .running && t.status != .suspended

/-- A launch ends FAILED with a cause: its owner gets the event record, with which it stops being live (R42, R58). -/
def endWith (s : State) (li : Nat) (c : Cause) : State :=
  match s.launch? li with
  | none => s
  | some l =>
    progress (emitLaunch (s.modLaunch li fun x => { x with phase := .failed, cause := c }) li l.ctx c l.r.seq) l.ctx

/-- A launch ends FAILED with the first cause recorded, or with `c` (R58). -/
def endFailed (s : State) (li : Nat) (c : Cause) : State :=
  endWith s li (((s.launch? li).map fun l => if l.cause = 0 then c else l.cause).getD c)

/-- Looks whether a running launch is stalled or final, and ends it (R56, R58). A DONE launch with a completion signal
stays live until the signal is written. A launch that is being stopped ends with its stop (R218). -/
def checkFinal (s : State) (li : Nat) : State :=
  match s.launch? li with
  | none => s
  | some l =>
    if l.phase ≠ .running ∨ l.stopped = true then s
    else
      let s1 :=
        if isStalled l then
          recordCause (modTasks s li (fun t =>
            if t.status = .waiting then { t with status := .failed, cause := if t.cause = 0 then cGraphStalled else t.cause }
            else t) (List.range l.tasks.length)) li cGraphStalled
        else s
      if !isFinal s1 li then s1
      else
        let s2 := clearWalkers s1 li
        match s2.launch? li with
        | none => s2
        | some l1 =>
          if l1.badTask then endFailed s2 li l1.cause
          else
            progress (s2.modLaunch li fun x =>
              { x with phase := .done, gone := x.r.csig = 0 }) l1.ctx

/-! ## Failure (R24, R57, R421) -/

/-- Indices reachable through successor edges. -/
def reachFrom (ts : List Task) : Nat → List Nat → List Nat
  | 0, seen => seen
  | n + 1, seen =>
    reachFrom ts n (seen ++ ((seen.flatMap fun i => (ts[i]?.map Task.succ).getD []).eraseDups.filter
      fun i => !seen.contains i))

/-- R57: every WAITING task reachable from a FAILED one becomes POISONED. -/
def poison (s : State) (li idx : Nat) : State :=
  match s.launch? li with
  | none => s
  | some l =>
    let r := (reachFrom l.tasks l.tasks.length [idx]).filter fun i => i != idx
    modTasks s li (fun t =>
      if t.status = .waiting then { t with status := .poisoned, cause := cGraphPoisoned } else t) r

/-- The unit of an SP that made a request. -/
def Issuer.onSp (i : Issuer) (sp : SpId) : Bool :=
  match i with
  | .scp x => x = sp
  | .weak x _ => x = sp
  | .window x _ _ => x = sp
  | .copy x _ => x = sp
  | .kload x => x = sp
  | _ => false

/-- The answers to the requests that a strand has left open reach nobody. -/
def orphan (s : State) (sp : SpId) : State :=
  s.modDev fun v => { v with txns := v.txns.map fun t => if t.who.onSp sp then { t with who := .gone } else t }

/-- The work of an SP's strand is abandoned: what its kernel has issued lands, its copies stop at an element boundary, and its
unstarted stream ops are cancelled (R108, R210, R421). -/
def abandonSp (s : State) (sp : SpId) : State :=
  (orphan (stopCopies (landRest 64 s sp) sp) sp).modSp sp fun p =>
    { p with
      pend := .none, sto := Stores.init, str := { Streams.init with kmap := p.str.kmap }
      ke := { p.ke with run := none, rep := none, infl := [] } }

/-- The SP holds no strand any longer. -/
def freeSp (s : State) (sp : SpId) : State :=
  (abandonSp s sp).modSp sp fun p =>
    { p with run := .idle, gang := none, seatMap := [], str := Streams.init, alloc := 0 }

def freeSeats (s : State) : List Seat → State
  | [] => s
  | q :: l =>
    match q.sp with
    | none => freeSeats s l
    | some sp => freeSeats (freeSp s sp) l

/-- The task faults that go to the context's owner by event record: those of classes 5 and 6 (R198, R431; log 29). -/
def toOwner (c : Cause) : Bool :=
  [cContRecordBad, cSaveTimeout, cSaveTimeoutNorb, cSramUncorrectable, cSpFailedNorb, cSrfUnrecoverable].contains c

/-- The records, images and save areas of a task that is final fall free (R428). -/
def freeAreas (s : State) (ctx : CtxId) (l : List Seat) : State :=
  l.foldl (fun t q => freeSave (devFree (devFree t ctx q.recAt) ctx q.img) ctx q.save) s

/-- The areas of a task that has failed fall free, unless a hang stop has failed it, after which they stay readable until the
context ends (R220; log 119). -/
def endAreas (s : State) (gi : Nat) (c : Cause) (g : Gang) : State :=
  if c = cWatchdogHang then s.modGang gi fun x => { x with kept := true } else freeAreas s g.ctx g.seats

/-- A task ends FAILED with a cause met on the seats `bad` (R24): records, event, graph, launch. -/
def failSeats (s : State) (gi : Nat) (bad : List Nat) (c : Cause) : State :=
  match s.gang? gi with
  | none => s
  | some g =>
    let seq : W64 := ((s.launch? g.launch).map fun l => l.r.seq).getD 0
    let sp : SpId := ((bad.head?.bind fun n => g.seats[n]?.bind Seat.sp).getD 0)
    let s1 := freeSeats s g.seats
    let s2 := s1.modGang gi fun x =>
      { x with
        live := false, saveAt := none
        seats := x.seats.zipIdx.map fun q =>
          { q.1 with status := .failed, seq := q.1.seq + 1, sp := none
                     cause := if bad.contains q.2 then c else q.1.cause } }
    let s3 := writeRecords s2 gi g.size
    let s4 := if toOwner c then emitTask s3 sp g.ctx c seq else s3
    let s5 := recordCause s4 g.launch c
    let graph := ((s.launch? g.launch).map fun l => l.r.kind == 1).getD false
    let s5 := servedBy s5 g.launch g.die
    let s6 :=
      if graph then
        poison (modTask s5 g.launch g.tindex.toNat fun t => { t with status := .failed, cause := c }) g.launch
          g.tindex.toNat
      else s5
    checkFinal (endAreas s6 gi c g) g.launch

/-- A task ends FAILED with a cause met on seat `n`. -/
def failGang (s : State) (gi n : Nat) (c : Cause) : State := failSeats s gi [n] c

/-- Equinox acts on a fault met at `va`: it writes a work record (R238; log 19). -/
def noteFault (s : State) (ctx : CtxId) (va : W64) (c : Cause) : State :=
  s.modDev fun d => { d with faults := d.faults ++ [⟨ctx, 0, 0, va, c.setWidth 64, 0, 0⟩] }

/-- A fatal fault of a strand: its task fails; an SP that runs a strand of no gang stops. -/
def failStrand (s : State) (sp : SpId) (c : Cause) : State :=
  match (s.sp sp).gang with
  | some g => noteFault (failGang s g (s.sp sp).id.seat.toNat c) (s.sp sp).id.ctx (s.sp sp).r.pc c
  | none => s.modSp sp fun p => { p with run := .halted, pend := .none }

/-! ## A strand's fault (R198, R203, R425) -/

/-- A save of the gang of an SP begins (R221). -/
def beginSave (s : State) (sp : SpId) : State :=
  match (s.sp sp).gang with
  | none => s
  | some g => s.modGang g fun x => { x with saveAt := some (x.saveAt.getD s.time) }

/-- The unit holds a translation of `va` that the tables no longer hold, and with the present one the access may succeed. -/
def staleTlb (s : State) (u : TUnit) (ctx : CtxId) (va : Nat) : Bool :=
  match tlbHit s u ctx va with
  | none => false
  | some l =>
    match walk s ctx va with
    | .ok w => w != l
    | .error c => repairable s ctx va c

/-- Equinox has acted on a fault of a stale translation: the unit drops its translations of `va`, an SP and its die, or a die. -/
def refreshTlb (s : State) (u : TUnit) (ctx : CtxId) (va : Nat) : State :=
  let s := noteFault s ctx (BitVec.ofNat 64 va) cPageNotPresent
  let l2 (t : State) (d : DieId) : State := t.modDie d fun x => { x with l2 := dropEntries ctx va (va + 1) x.l2 }
  match u with
  | .sp i => l2 (s.modSp i fun p => { p with tlb := dropEntries ctx va (va + 1) p.tlb }) (dieOf i)
  | .die d => l2 s d
  | .none => s

/-- The fault is one that another translation of `va` can cure, met through a translation that a shootdown is removing: Equinox's
repair is done once the unit has dropped it (R198, R205, R425). -/
def staleFault (s : State) (u : TUnit) (ctx : CtxId) (c : Cause) (va : Nat) : Bool :=
  (c.toNat / 128 = 2 || c = cCopySaddPage) && staleTlb s u ctx va

/-- What a record of the store-fault buffer needs: nothing more, a HOST page-in, or it cannot be repaired. -/
inductive Fix where
  | ready | pageIn | no
  deriving DecidableEq, Repr

/-- Whether a change of translation state makes the record's store succeed (R198). A record keeps 56 bits of the address
(R155), so one of a VA_RANGE store is never repaired. -/
def recordFix (s : State) (ctx : CtxId) (r : SfRecord) : Fix :=
  if r.cause.toNat / 128 ≠ 2 ∨ r.cause = cVaRange then .no
  else
    match translate s .none ctx r.va.toNat .write .scp with
    | .ok _ => .ready
    | .error c => if repairable s ctx r.va.toNat c then .pageIn else .no

def bySeq (l : List SfRecord) : List SfRecord := l.mergeSort fun a b => decide (a.seq.toNat ≤ b.seq.toNat)

/-- The first record of an SP, in ascending SEQ, of one kind. -/
def recordOf (s : State) (sp : SpId) (f : Fix) : Option SfRecord :=
  (bySeq (s.sp sp).sto.records).find? fun r => recordFix s (s.sp sp).id.ctx r = f

/-- Asks the host for each page that a record needs. -/
def requestPages (s : State) (ctx : CtxId) (l : List SfRecord) : State :=
  l.foldl (fun z r => if recordFix s ctx r = .pageIn then askPage z ctx r.va else z) s

/-- A strand stops for the page-in that a fault at `va` needs, and its gang is to be descheduled FAULTED. That is a suspension
point, at which its pending store-fault records are delivered too (R31, R154): their pages are asked for, and one that cannot be
repaired fails the task. -/
def stopFaulted (s : State) (sp : SpId) (c : Cause) (va : W64) : State :=
  let p := s.sp sp
  match recordOf s sp .no with
  | some r => failStrand s sp r.cause
  | none =>
    requestPages (askPage ((beginSave s sp).modSp sp fun p =>
      { p with run := .stopped (.fault c), pend := .repair c va
               sto := { p.sto with delivered := !p.sto.records.isEmpty } }) p.id.ctx va) p.id.ctx p.sto.records

/-- The strand of `sp` meets fault `c` at address `va`. A fault whose repair needs a HOST page-in stops the strand (log 82).
A fault met through a translation that a shootdown is removing is served with the strand resident, which replays the access
(R205, R425). Every other fault is fatal to the task. -/
def strandFault (s : State) (sp : SpId) (c : Cause) (va : Nat) : State :=
  let ctx := (s.sp sp).id.ctx
  if repairable s ctx va c then stopFaulted s sp c (BitVec.ofNat 64 va)
  else if staleFault s (.sp sp) ctx c va then refreshTlb s (.sp sp) ctx va
  else failStrand s sp c

/-- The fault of the instruction under execution. -/
def State.faultAt (s : State) (c : Cause) (va : Nat) : State := strandFault s s.cur c va

/-- A fault of the instruction under execution that no change of translation state repairs (R198). -/
def State.fatal (s : State) (c : Cause) : State := failStrand s s.cur c

/-- The device asks for the page of `va` on behalf of a launch, once. -/
def launchAsk (s : State) (li va : Nat) : State :=
  match s.launch? li with
  | none => s
  | some l =>
    let w : W64 := BitVec.ofNat 64 va
    if l.wait = some w then s
    else askPage (s.modLaunch li fun x => { x with wait := some w }) l.ctx w

/-! ## Pre-emption requests and suspension points (R31, R210) -/

/-- Some seat of the gang waits to be descheduled for a fault. -/
def gangFaulted (s : State) (g : Gang) : Bool :=
  g.seats.any fun q =>
    match q.sp with
    | none => false
    | some sp =>
      match (s.sp sp).run with
      | .stopped (.fault _) => true
      | _ => false

/-- Whether the strand's gang is asked to leave its SPs: a pre-emption of its context, or a seat of the gang that
Equinox serves with the gang descheduled. -/
def reqPending (s : State) (sp : SpId) : Bool :=
  (s.ctx (s.sp sp).id.ctx).preempt.isSome
    || (match (s.sp sp).gang with
        | none => false
        | some gi =>
          match s.gang? gi with
          | none => false
          | some g => gangFaulted s g)

/-- The strand has reached a suspension point or is parked; one at susp has reached it while its stream ops still run (R31,
R379). -/
def Sp.atRest (p : Sp) : Bool :=
  match p.run with
  | .stopped _ => true
  | .parked => true
  | .running => p.pend = .quiet
  | _ => false

/-- Every seat of a gang stands at a suspension point or is parked. -/
def gangAtRest (s : State) (g : Gang) : Bool :=
  g.seats.all fun q =>
    match q.sp with
    | none => true
    | some sp => (s.sp sp).atRest

/-- With its last seat at rest the gang of an SP is being saved, if it was not asked to suspend before (R221; log 110). -/
def restSave (s : State) (sp : SpId) : State :=
  match (s.sp sp).gang.bind s.gang? with
  | some g => if gangAtRest s g then beginSave s sp else s
  | none => s

/-- The strand stops at a suspension point; it resumes at `pc`. -/
def stopStrand (s : State) (sp : SpId) (k : SuspKind) (pc : W64) : State :=
  restSave (s.modSp sp fun p => { p with run := .stopped k, pend := .none, r := { p.r with pc := pc } }) sp

/-! ## The end of a task (R24, R55, R56) -/

/-- A task becomes READY and enters the ready queue of a die (R47). -/
def readyTask (s : State) (li idx : Nat) (die : DieId) : State :=
  (modTask (servedBy s li die) li idx fun t => { t with status := .ready }).modDie die fun d => { d with ready := d.ready ++ [⟨li, idx⟩] }

/-- One decrement of a successor's counter (R55, R56). -/
def decrement (s : State) (li idx : Nat) (die : DieId) : State :=
  match (s.launch? li).bind fun l => l.tasks[idx]? with
  | none => s
  | some t =>
    if t.dep = 0 then
      recordCause (modTask s li idx fun x =>
        { x with cause := if x.cause = 0 then cGraphCountUnderflow else x.cause }) li cGraphCountUnderflow
    else
      let s1 := modTask s li idx fun x => { x with dep := x.dep - 1 }
      if t.dep = 1 ∧ t.status = .waiting then readyTask s1 li idx die else s1

def decrementAll (s : State) (li : Nat) (die : DieId) : List Nat → State
  | [] => s
  | i :: l => decrementAll (decrement s li i die) li die l

/-- The last seat has executed tend: the task is DONE (R24, R55), its SPs are free, and the launch may be final. -/
def taskDone (s : State) (gi : Nat) : State :=
  match s.gang? gi with
  | none => s
  | some g =>
    let s1 := freeSeats s g.seats
    let s2 := s1.modGang gi fun x =>
      { x with live := false, seats := x.seats.map fun q => { q with status := .done, sp := none } }
    let s3 := (writeRecords s2 gi g.size).modLaunch g.launch fun l =>
      { l with doneTiles := l.doneTiles + 1, order := l.order + 1, lastDie := g.die }
    let s4 :=
      match s3.launch? g.launch with
      | none => s3
      | some l =>
        if l.r.kind = 1 then
          let idx := g.tindex.toNat
          let t1 := modTask s3 g.launch idx fun t => { t with status := .done, trig := true }
          let t2 := enginePut t1 l (l.r.tasks.toNat + 64 * idx + 48) (leBytes 8 l.order)
          decrementAll t2 g.launch g.die ((l.tasks[idx]?.map Task.succ).getD [])
        else s3
    checkFinal (freeAreas s4 g.ctx g.seats) g.launch

/-! ## Triggering (R62) -/

/-- Whether every seat of the gang has executed trig or tend. -/
def gangTriggered (s : State) (g : Gang) : Bool :=
  g.seats.all fun q => q.trig || (match q.sp with
    | some sp => (s.sp sp).run = .parked
    | none => q.status = .parked)

/-- R62: the launch is final, or each of its tasks has executed trig or ended. -/
def isTriggered (s : State) (li : Nat) : Bool :=
  match s.launch? li with
  | none => true
  | some l =>
    l.phase = .done || l.phase = .failed
      || (l.phase = .running
          && (if l.r.kind = 1 then
                l.tasks.zipIdx.all fun t => t.1.trig || t.1.status = .done || t.1.status = .failed
                  || t.1.status = .poisoned
                  || s.gangs.any fun g => g.live && g.launch = li && g.tindex.toNat = t.2 && gangTriggered s g
              else !hasRange s li && s.gangs.all fun g => !(g.live && g.launch = li) || gangTriggered s g))

/-- R62: some task of the launch has ended FAILED or POISONED, or the launch has ended FAILED. -/
def isFailed (s : State) (li : Nat) : Bool :=
  match s.launch? li with
  | none => false
  | some l =>
    l.phase = .failed
      || (if l.r.kind = 1 then l.tasks.any fun t => t.status = .failed || t.status = .poisoned else l.badTask)

/-- The live launch of a context with this ID (R42). -/
def liveLaunch (s : State) (ctx : CtxId) (id : W32) : Option Nat :=
  (s.launches.zipIdx.find? fun l => l.1.ctx = ctx && l.1.r.launchId = id && !l.1.gone).map Prod.snd

end Sys2Proof.Machine
end

