-- ==== Sys2Proof/Machine/Fabric.lean ====
section
/-! DEFINITION. The scale-up fabric (spec/08): packets and stations, the arbiter of a station (R178), the target's
checks (R169) and what it performs, and what an answer does at its requester (R170 to R173, R181). -/

namespace Sys2Proof.Machine

open Sys2Proof

/-! ## The arbiter of a station (R178) -/

/-- The slack left after waiting from `since` to `now`, and whether it is spent. -/
def spend (slack : BitVec 12) (since now : Nat) : BitVec 12 :=
  BitVec.ofNat 12 (slack.toNat - (now / 16 - since / 16))

def Packet.now (p : Packet) (t : Nat) : Packet :=
  let k := spend p.h.slack p.since t
  { p with h := { p.h with slack := k, ovd := p.h.ovd || k = 0 } }

/-- R164: the rank of an ORD packet is that of the earliest waiting ORD packet of its SRC and SSID; only that one is
granted. -/
def mayGo (l : List Packet) (p : Packet) (i : Nat) : Bool :=
  !p.h.ord || !(l.take i).any fun q => q.h.ord && q.h.ssid = p.h.ssid && q.h.src = p.h.src

/-- The index that a round-robin pointer reaches first among inputs. -/
def rrDist (rr input : Nat) : Nat := (0x1_0000 + input - rr) % 0x1_0000

/-- Picks the packet at which `key` is least, then the input the pointer reaches first. -/
def pickBy (key : Packet → Nat) (rr : Nat) : List (Packet × Nat) → Option (Packet × Nat)
  | [] => none
  | p :: l =>
    match pickBy key rr l with
    | none => some p
    | some q =>
      if key p.1 < key q.1 || (key p.1 = key q.1 && rrDist rr p.1.input ≤ rrDist rr q.1.input) then some p else some q

/-- Whether another candidate has the same key and waits at another input, so that the pointer breaks the tie. -/
def tied (key : Packet → Nat) (p : Packet) (i : Nat) (l : List (Packet × Nat)) : Bool :=
  l.any fun q => q.2 != i && key q.1 = key p && q.1.input != p.input

/-- A grant: the packet, its place in the queue, the overdue round after it, and whether the pointer broke a tie. -/
structure Grant where
  pkt   : Packet
  place : Nat
  round : List Nat
  tie   : Bool

/-- The packet an arbiter grants: an overdue one that waits at an input not yet in the round, or else the one of least
slack. -/
def arbPick (a : Arbiter) (t : Nat) : Option Grant :=
  let l := a.wait.map fun p => p.now t
  let c := (l.zipIdx).filter fun p => mayGo l p.1 p.2
  let od := c.filter fun p => p.1.h.ovd
  let fresh := od.filter fun p => !a.round.contains p.1.input
  let from_ := if fresh.isEmpty then od else fresh
  match pickBy (fun p => p.since) a.rr from_ with
  | some (p, i) =>
    some ⟨p, i, if fresh.isEmpty then [p.input] else p.input :: a.round, tied (fun p => p.since) p i from_⟩
  | none =>
    match pickBy (fun p => p.h.slack.toNat) a.rr c with
    | some (p, i) => some ⟨p, i, a.round, tied (fun p => p.h.slack.toNat) p i c⟩
    | none => none

/-- A grant: the packet leaves on the station. The pointer moves to the input after the one granted when it broke a
tie. -/
def grantStation (s : State) (st : StId) : State :=
  let a := s.dev.arb[st]
  match arbPick a s.time with
  | none => s
  | some g =>
    s.modDev fun v =>
      { v with
        arb := v.arb.set st
          { wait := a.wait.eraseIdx g.place, rr := if g.tie then g.pkt.input + 1 else a.rr, round := g.round }
        fabricOut := v.fabricOut ++ [g.pkt] }

/-! ## Answers at the requester -/

/-- The first record of the deferred error of a window (R77). -/
def Window.fail (w : Window) (c : Cause) : Window :=
  { w with err := true, ecause := if w.err then w.ecause else c }

def Window.acked (w : Window) : Window := { w with outst := if w.outst = 0 then 0 else w.outst - 1 }

/-- The answer to the request with a tag, if it is awaited. -/
def Pend.answer (p : Pend) (tag : BitVec 12) (a : Reply) : Pend :=
  match p with
  | .remote t Option.none g => if t = tag then .remote t (some a) g else p
  | x => x

/-- Sets the answer of the packet with a tag. -/
def CopyRun.answer (r : CopyRun) (tag : BitVec 12) (a : Reply) : CopyRun :=
  { r with
    pkts := r.pkts.map fun p => if p.tag = tag ∧ p.ans = none then { p with ans := some a } else p
    pend := r.pend.answer tag a }

/-- The strand has awaited these tags: the window writes of their kernels are its own from now on (R144). -/
def coverTags (s : State) (sp : SpId) (mask : W32) : State :=
  s.modDev fun v => { v with txns := v.txns.map fun t =>
    match t.who with
    | .window i k (some g) => if i = sp ∧ mask.getLsbD g.val = true then { t with who := .window i k none } else t
    | _ => t }

def Sp.modStr (p : Sp) (f : Streams → Streams) : Sp := { p with str := f p.str }
def Streams.modChan (x : Streams) (c : ChId) (f : Channel → Channel) : Streams :=
  { x with chans := x.chans.set c (f x.chans[c]) }

/-- The Dealer's run changes. -/
def modDeal (s : State) (d : DieId) (f : DealRun → DealRun) : State :=
  s.modDie d fun x => { x with dealer := { x.dealer with run := x.dealer.run.map f } }

/-- R188, R189: reason KEY_STALE or DEST_FAULT of a failed answer. -/
def dropReason (c : Cause) : BitVec 4 := if c = cKeyStale then 2 else 3
/-- R191: the first cause recorded. -/
def DealRun.note (r : DealRun) (c : Cause) : DealRun := { r with cause := if r.cause = 0 then c else r.cause }

/-- The outcome of a choice whose last packet has been answered (R189): a row with a refused packet is dropped with what that
packet's answer said, a row that was still in flight when its expert was found bad with what the expert has met. -/
def landed (slot : Nat) (own bad : Option (BitVec 4 × Cause)) : DealOut :=
  match own.or bad with
  | some b => .dropped b.1 b.2
  | none => .placed slot

/-- The outcome of choice `i` of expert `x` after one of its packets was answered; `own` is what a packet of the row has met, and
`r` knows what the answer says of the expert. -/
def dealLand (r : DealRun) (i x slot n : Nat) (own : Option (BitVec 4 × Cause)) : DealRun :=
  let bad := (r.experts[x]?).bind Expert.bad
  if n ≤ 1 then
    { r with
      choices := modList (fun c => { c with out := landed slot own bad }) r.choices i
      inv := r.inv ++ [i]
      experts := if (own.or bad).isSome then r.experts else modList (fun e => { e with placed := e.placed + 1 }) r.experts x }
  else { r with choices := modList (fun c => { c with out := .sent slot (n - 1) own }) r.choices i }

/-- Nothing further is sent to expert `x` (R188, R189); the first failure stays. -/
def DealRun.expertBad (r : DealRun) (x : Nat) (b : BitVec 4 × Cause) : DealRun :=
  { r with experts := modList (fun e => { e with bad := e.bad.or (some b) }) r.experts x }

/-- R189: a packet of choice `i` was answered. -/
def dealAck (r : DealRun) (i : Nat) (a : Reply) : DealRun :=
  match r.choices[i]? with
  | none => r
  | some ch =>
    match ch.out with
    | .sent slot n own =>
      (match a with
        | .data _ => dealLand r i ch.expert.toNat slot n own
        | .err c =>
          (dealLand (r.expertBad ch.expert.toNat (dropReason c, c)) i ch.expert.toNat slot n
            (own.or (some (dropReason c, c)))).note c)
    | _ => r

/-- Adds a store-fault record of a weak store (R154, R170). -/
def addRecord (p : Sp) (r : SfRecord) : Sp := { p with sto := { p.sto with records := p.sto.records ++ [r] } }

/-- The answer to an access, if it is its request that was answered. -/
def DealAsk.take (h : SahatHdr) (a : Reply) (u : DealAsk) : DealAsk :=
  if u.typ = h.typ ∧ u.acc = h.dst ∧ u.key = h.key ∧ u.addr = h.addr.toNat ∧ u.len = h.len.toNat + 1 ∧ u.ans = none then
    { u with ans := some a }
  else u

/-- What an answer does for the one who waits for it (R170 to R173, R188 to R190). -/
def answerTo (s : State) (t : Txn) (a : Reply) : State :=
  match t.who with
  | .scp sp =>
    s.modSp sp fun p => { p with pend := p.pend.answer t.h.tag a }
  | .kload sp => s.modSp sp fun p => p.modStr fun x => { x with kpend := x.kpend.answer t.h.tag a }
  | .weak sp r =>
    match a with
    | .data _ => s
    | .err c => s.modSp sp fun p => addRecord p { r with cause := c }
  | .window sp k _ =>
    s.modSp sp fun p => p.modR fun r =>
      { r with win := r.win.set k (match a with
          | .data _ => r.win[k].acked
          | .err c => (r.win[k].acked).fail c) }
  | .copy sp ch =>
    s.modSp sp fun p => p.modStr fun x => x.modChan ch fun c => { c with run := c.run.map fun r => r.answer t.h.tag a }
  | .reserve d x =>
    modDeal s d fun r =>
      match a with
      | .data b =>
        { r with
          waitRes := r.waitRes - 1
          experts := modList (fun e => { e with base := some (BitVec.ofNat 64 (leNat b)) }) r.experts x }
      | .err c =>
        ({ r with
          waitRes := r.waitRes - 1
          experts := modList (fun e => { e with bad := some (dropReason c, c) }) r.experts x }).note c
  | .scatter d i => modDeal s d fun r => dealAck r i a
  | .doneAdd d _ =>
    modDeal s d fun r =>
      match a with
      | .data _ => { r with pubs := r.pubs - 1 }
      | .err c => ({ r with pubs := r.pubs - 1, incomplete := true }).note c
  | .dealer d => s.modDie d fun x => { x with dealer := { x.dealer with memo := x.dealer.memo.map (DealAsk.take t.h a) } }
  | .engineRead li => s.modLaunch li fun x => { x with memo := x.memo.map (DealAsk.take t.h a) }
  | .engine _ => s
  | .completion li =>
    match s.launch? li, a with
    | some _, .data _ =>
      if recordWaits s li || s.dev.txns.any (fun x => x.who = .completion li) then s
      else s.modLaunch li fun x => { x with gone := true }
    | some l, .err c => if l.gone || recordWaits s li then s else emitLaunch s li l.ctx c l.r.seq
    | none, _ => s
  | .gone => s
  | .result q =>
    match a with
    | .data _ => s
    | .err c => emitQueue s t.ctx c q

/-- R181: the answer to a packet arrives overdue: SLKCNT counts it, and SLKCTL.EVT asks for an event record. -/
def overdueAnswer (s : State) (ctx : CtxId) (ssid : BitVec 16) (src : BitVec 11) (seq : BitVec 48) : State :=
  let s1 := s.modCtx ctx fun c => { c with slkcnt := c.slkcnt + 1 }
  if (s1.ctx ctx).slkctl.getLsbD 0 then emit s1 0 ssid cSlackExhausted 4 ctx src (seq.setWidth 64) else s1

/-- R181 for a reply of the fabric. -/
def countOverdue (s : State) (t : Txn) (ovd : Bool) : State :=
  if ovd then overdueAnswer s t.ctx t.h.ssid t.h.src t.h.seq else s

/-- FREE VALUE (log 115). Whether the `k`-th packet of this turn that stayed on the chip comes back overdue: always with slack 0,
otherwise when its waits at the arbiters have used its slack up (R178 to R180), which is timing. -/
def chipOverdue (tick k : Nat) (p : ChipPkt) : Bool := p.slack = 0 || Config.freeBit tick (200 + k)

/-- The answer to the `k`-th packet that stayed on the chip arrives (R179, R181). That to a request from a port leaves the device,
and counts in no SLKCNT (log 115). -/
def answerChip (tick k : Nat) (p : ChipPkt) (s : State) : State :=
  match p.strm with
  | some (ssid, seq) => if chipOverdue tick k p then overdueAnswer s p.ctx ssid s.dev.accId seq else s
  | none => s

/-- The answers to the packets that stayed on the chip have arrived. -/
def settleChip (s : State) : State :=
  s.dev.chip.zipIdx.foldl (fun t x => answerChip s.tick x.2 x.1 t) (s.modDev fun d => { d with chip := [] })

/-- The open transaction that a reply names; SEQ, which a reply carries as its request had it (log 121), tells it from an earlier
one that had its tag (R171). -/
def txnOf (s : State) (h : SahatHdr) : Option Txn :=
  s.dev.txns.find? fun t => t.h.ssid = h.ssid && t.h.tag = h.tag && t.h.seq = h.seq

/-- Ends an open transaction with an answer (R171). -/
def closeTxn (s : State) (t : Txn) (ovd : Bool) (a : Reply) : State :=
  let s1 := s.modDev fun v =>
    { v with txns := v.txns.filter fun x => !(x.h.ssid = t.h.ssid && x.h.tag = t.h.tag) }
  countOverdue (answerTo s1 t a) t ovd

/-- R162: a reply is malformed when a reserved bit, a field that is 0 in replies, or its length is wrong. -/
def replyBad (s : State) (h : SahatHdr) (typ : BitVec 6) (d : List Byte) : Bool :=
  h.typ != typ || h.res0 != 0 || h.res1 != 0 || h.res2 != 0 || h.aop != 0 || h.key != 0 || h.dst != s.dev.accId
    || (if typ = tNAK then h.cause = 0 else h.cause != 0)
    || (if typ = tRDATA ∨ typ = tADATA then d.length != h.len.toNat + 1 else !d.isEmpty)
    || (match txnOf s h with
        | none => false
        | some t => h.stn != t.h.stn
          || (typ = tRDATA && (t.h.typ != tREAD || h.len != t.h.len))
          || (typ = tADATA && (t.h.typ != tATOM || h.len != t.h.len))
          || (typ = tACK && (t.h.typ = tREAD || t.h.typ = tATOM)))

/-- A reply arrives (R162, R170, R171, R181), after its own waits in the requester's device (log 115): a late or unknown answer is
discarded. -/
def reply (s : State) (h : SahatHdr) (typ : BitVec 6) (d : List Byte) : State :=
  if replyBad s h typ d then s.modDev fun v => { v with malformed := v.malformed + 1 }
  else
    match txnOf s h with
    | none => s
    | some t => closeTxn s t (dieWait s.tick h).ovd (if typ = tNAK then .err h.cause else .data d)

/-! ## The target (R167 to R169) -/

/-- The header of a reply (R161, R179): the request's stream, tag, station, slack and OVD, and its SEQ (log 121). -/
def replyHdr (h : SahatHdr) (typ : BitVec 6) (c : Cause) : SahatHdr :=
  { h with typ := typ, aop := 0, dst := h.src, src := h.dst, key := 0, cause := c, ord := false, res0 := 0, res1 := 0
           res2 := 0 }

/-- A reply leaves on the request's station, unless that station is down (R166); a request of this device's own is
answered at once. -/
def sendReply (s : State) (h : SahatHdr) (typ : BitVec 6) (c : Cause) (d : List Byte) : State :=
  let r := replyHdr h typ c
  if h.src = s.dev.accId then reply s { r with stn := h.stn } typ d
  else
    let st : StId := Fin.ofNat 16 h.stn.toNat
    if s.dev.lanes[st] = 0 then s else enqueue s st r d

/-- R161, R162: the header of a request and its payload are well formed; ORD = 1 on a type that does not take it, and an AOP
or a CAUSE on a type that has none, are not (log 101). -/
def reqOk (h : SahatHdr) (d : List Byte) : Bool :=
  let n := h.len.toNat + 1
  let a := h.addr.toNat
  h.res0 = 0 && h.res1 = 0 && h.res2 = 0 && h.cause = 0
    && (h.typ = tREAD || h.typ = tPWR || h.typ = tNPWR || h.typ = tFEWR || h.typ = tATOM)
    && decide (a / 256 = (a + n - 1) / 256)
    && (if h.typ = tATOM then
          (n = 4 || n = 8) && a % n = 0 && decide (h.aop.toNat ≤ 10) && (h.aop != 10 || n = 4)
            && d.length = (if h.aop = 9 then 2 * n else n)
        else h.aop = 0 && d.length = (if h.typ = tREAD then 0 else n))
    && (!h.ord || h.typ = tPWR || h.typ = tFEWR)

def regionOf (s : State) (key : W32) : Option Region := assoc? s.dev.regions (key.toNat / 4096)

/-- The gang an SRF region names: its launch ID and task index (R167). -/
def regionGang (s : State) (r : Region) : Option (Nat × Gang) :=
  (s.gangs.zipIdx.find? fun g =>
    g.1.live && g.1.ctx = r.ctx && g.1.tindex = r.gtask
      && ((s.launch? g.1.launch).map fun l => l.r.launchId == r.glaunch).getD false).map fun g => (g.2, g.1)

/-- The gang size that the region's launch names, if it is known. -/
def regionSize (s : State) (r : Region) : Option Nat :=
  (s.launches.find? fun l => l.ctx = r.ctx && l.r.launchId = r.glaunch && !l.gone).map fun l => 2 ^ l.r.glog.toNat

/-- Steps 1 to 5 of R169: the first check that fails. Address bits of an SRF request that must be 0 are out of the region's
range (R168; log 102). -/
def keyCheck (s : State) (h : SahatHdr) (d : List Byte) : Except Cause Region :=
  if !reqOk h d then .error cSahatMalformed
  else
    match regionOf s h.key with
    | none => .error cKeyInvalid
    | some r =>
      let a := h.addr.toNat
      let n := h.len.toNat + 1
      let lo := if r.srf then a % 2 ^ 23 else a % 2 ^ 56
      if !r.valid then .error cKeyInvalid
      else if h.key.setWidth 12 ≠ r.gen then .error cKeyStale
      else if (a / 2 ^ 56 = 1) ≠ (r.srf = true) then .error cKeyRange
      else if r.srf && a % 2 ^ 56 / 2 ^ 29 != 0 then .error cKeyRange
      else if lo < r.base.toNat ∨ lo + n > r.base.toNat + r.lenb.toNat then .error cKeyRange
      else if r.srf && ((regionSize s r).map fun k => decide (k ≤ a / 2 ^ 23 % 64)).getD false then .error cKeyRange
      else if (h.typ = tREAD ∧ !r.rd) ∨ ((h.typ = tPWR ∨ h.typ = tNPWR ∨ h.typ = tFEWR) ∧ !r.wr)
        ∨ (h.typ = tATOM ∧ !r.atom) ∨ (h.typ = tFEWR ∧ !r.srf) then .error cKeyPerm
      else .ok r

/-- What the target does with a request that has passed the key checks. -/
inductive Served where
  | done (s : State) (d : List Byte)
  | nak (s : State) (c : Cause)
  /-- Held at step 6 (`false`) or step 8 (`true`), bounded by the FETIME of a die. -/
  | hold (line : Bool) (die : DieId)

/-- The operand of an ATOM as numbers: operand or compare value, and new value. -/
def atomNew (h : SahatHdr) (d : List Byte) (old : Nat) : Nat :=
  let n := h.len.toNat + 1
  amoNew h.aop (8 * n) old (leNat (d.take n)) (leNat (d.drop n))

/-- The lines a write of `n` bytes at `off` touches become full (FEWR, R162). -/
def setLinesFull (p : Sp) (off n : Nat) : Sp :=
  p.setFullRange (off / 128 * 128) true ((off + n - 1) / 128 - off / 128 + 1)

/-- Steps 6 and 8 and the operation on an SRF target. While no gang of the region is live, the wait of step 6 is bounded by
the FETIME of die 0 (log 103). -/
def serveSrf (s : State) (h : SahatHdr) (d : List Byte) (r : Region) : Served :=
  let a := h.addr.toNat
  let off := a % 2 ^ 23
  let n := h.len.toNat + 1
  match regionGang s r with
  | none => .hold false 0
  | some (_, g) =>
    match (g.seats[a / 2 ^ 23 % 64]?).bind Seat.sp with
    | none => .hold false g.die
    | some sp =>
      let p := s.sp sp
      if (h.typ = tREAD ∨ h.typ = tATOM) ∧ !(p.full off && p.full (off + n - 1)) then .hold true (dieOf sp)
      else if h.typ = tREAD then .done s (p.fBytes off n)
      else if h.typ = tATOM then
        let old := p.fBytes off n
        .done (s.modSp sp fun q => q.fWrite off (leBytes n (atomNew h d (leNat old)))) old
      else
        .done (s.modSp sp fun q =>
          let q1 := q.fWrite off d
          if h.typ = tFEWR then setLinesFull q1 off n else q1) []

/-- R169: the event record of a REMOTE_PAGE_FAULT at the target. -/
def pageFaultEvent (s : State) (ctx : CtxId) (h : SahatHdr) : State :=
  emit s 0 h.ssid cRemotePageFault 1 ctx h.src (h.seq.setWidth 64)

/-- Steps 7 and 9 and the operation on a memory target. -/
def serveMem (s : State) (h : SahatHdr) (d : List Byte) (r : Region) : Served :=
  let va := h.addr.toNat % 2 ^ 56
  let n := h.len.toNat + 1
  let u : Use := if h.typ = tREAD then .read else if h.typ = tATOM then .amo else .write
  match translate s .none r.ctx va u .outside with
  | .error _ => .nak (pageFaultEvent s r.ctx h) cRemotePageFault
  | .ok lf =>
    let pa := lf.pa va
    if u ≠ .write ∧ poisoned s.dev.poison pa n then .nak s cRemoteMediaError
    else if u = .read then .done s (s.physRead pa n)
    else if u = .amo then
      let old := s.physRead pa n
      .done (s.physWrite pa (leBytes n (atomNew h d (leNat old)))) old
    else .done (s.physWrite pa d) []

def serveKey (s : State) (h : SahatHdr) (d : List Byte) (r : Region) : Served :=
  if r.srf then serveSrf s h d r else serveMem s h d r

/-- The type of the reply to a request that was performed (R162). -/
def replyType (typ : BitVec 6) : BitVec 6 := if typ = tREAD then tRDATA else if typ = tATOM then tADATA else tACK

/-- The LIMIT of a die's FETIME in ns (R71). -/
def feLimit (s : State) (d : DieId) : Nat := bits (s.die d).fetime.toNat 0 24 * 1000

/-- R164: an earlier ORD packet of the same SRC and SSID is still held here. -/
def ordBlocked (s : State) (h : SahatHdr) : Bool :=
  h.ord && s.dev.held.any fun x => x.h.ord && x.h.src = h.src && x.h.ssid = h.ssid

/-- Finishes a request: its reply, or its place among the held ones. -/
def finish (s : State) (h : SahatHdr) (d : List Byte) (since : Option Nat) (x : Served) : State :=
  match x with
  | .done t b => sendReply t h (replyType h.typ) 0 b
  | .nak t c => sendReply t h tNAK c []
  | .hold line die =>
    s.modDev fun v => { v with held := v.held ++ [⟨h, d, since.getD s.time, feLimit s die, line, true⟩] }

/-- A request arrives at this target (R169). -/
def request (s : State) (h : SahatHdr) (d : List Byte) : State :=
  match keyCheck s h d with
  | .error c => sendReply s h tNAK c []
  | .ok r =>
    if ordBlocked s h then s.modDev fun v => { v with held := v.held ++ [⟨h, d, s.time, 0, false, true⟩] }
    else finish s h d none (serveKey s h d r)

/-- A held request is tried again: the region's entry is not checked a second time for its key, since the request has
been accepted (R169, R173). A request that loops back to this device is checked here for the first time. -/
def retryHeld (s : State) (k : Nat) : State :=
  match s.dev.held[k]? with
  | none => s
  | some x =>
    let s1 := s.modDev fun v => { v with held := v.held.eraseIdx k }
    match (if !x.accepted then keyCheck s1 x.h x.data else
      match regionOf s1 x.h.key with
      | some r => .ok r
      | none => .error cKeyInvalid) with
    | .error c => sendReply s1 x.h tNAK c []
    | .ok r =>
      if ((s.dev.held.take k).any fun y => y.h.ord && x.h.ord && y.h.src = x.h.src && y.h.ssid = x.h.ssid) then s
      else
        match serveKey s1 x.h x.data r with
        | .hold line die =>
          s.modDev fun v => { v with held := modList (fun y =>
            let anew := x.limit = 0 || line != y.srfWait
            { y with since := (if anew then s.time else y.since), limit := (if anew then feLimit s die else y.limit),
                     srfWait := line, accepted := true }) v.held k }
        | r1 => finish s1 x.h x.data none r1

end Sys2Proof.Machine
end

