-- ==== Sys2Proof/Machine/ScpAlu.lean ====
section
/-! DEFINITION. The SCP's integer, branch and special-register instructions (R256 to R260 and their entries). -/

namespace Sys2Proof.Machine

open Sys2Proof

abbrev Out := Host.Outcome State Fault Refusal

/-! ## Shared operations -/

/-- ILLEGAL_INSTRUCTION, precise (R3, R257): Equinox cannot repair it. -/
def State.illegal (s : State) : State := s.fatal cIllegalInstruction

/-- R259. -/
def condHolds (c : BitVec 4) (a b : W64) : Bool :=
  match c.toNat with
  | 0 => a == b
  | 1 => a != b
  | 2 => a.slt b
  | 3 => !a.slt b
  | 4 => a.ult b
  | _ => !a.ult b

/-- The high half of the exact product (R333). -/
def mulHigh (sgn : Bool) (a b : W64) : W64 :=
  if sgn then BitVec.ofInt 64 (a.toInt * b.toInt / 2 ^ 64) else BitVec.ofNat 64 (a.toNat * b.toNat / 2 ^ 64)

/-- R300: the quotient, and whether the divisor is 0. -/
def quotient (sgn : Bool) (a b : W64) : W64 :=
  if b = 0 then BitVec.allOnes 64
  else if sgn then BitVec.ofInt 64 (Int.tdiv a.toInt b.toInt) else BitVec.ofNat 64 (a.toNat / b.toNat)

/-- R350. -/
def remainder (sgn : Bool) (a b : W64) : W64 :=
  if b = 0 then a
  else if sgn then BitVec.ofInt 64 (Int.tmod a.toInt b.toInt) else BitVec.ofNat 64 (a.toNat % b.toNat)

/-- IDZ of AFLAGS is set when the divisor is 0 (R200). -/
def State.noteIdz (s : State) (b : W64) : State :=
  if b = 0 then s.modMe fun p => p.modR fun r => { r with aflags := setIdz r.aflags } else s

def lesser (sgn : Bool) (a b : W64) : Bool := if sgn then a.slt b else a.ult b

/-- `2^(wm1+1) - 1` (R290). -/
def fieldMask (wm1 : BitVec 6) : W64 := BitVec.ofNat 64 (2 ^ (wm1.toNat + 1) - 1)

/-- The target of a branch with a word offset (R288). -/
def branchTo (pc : W64) (imm : BitVec 20) : W64 := pc + (imm.signExtend 64 <<< 3)

/-- R257, R288: bits [2:0] and [63:56] of a target must be 0. -/
def targetOk (t : W64) : Bool := t &&& 0xFF00_0000_0000_0007 = 0

/-- Goes to a target, or raises ILLEGAL_INSTRUCTION at the branch. -/
def State.branch (s : State) (t : W64) : State := if targetOk t then s.jumpTo t else s.illegal

/-! ## Three registers -/

/-- R279. -/
def execAdd (d a b : SReg) (s : State) : Out := .next (s.retireTo d (s.sreg a + s.sreg b))

/-- R378. -/
def execSub (d a b : SReg) (s : State) : Out := .next (s.retireTo d (s.sreg a - s.sreg b))

/-- R333. -/
def execMul (d a b : SReg) (s : State) : Out := .next (s.retireTo d (s.sreg a * s.sreg b))

/-- R333. -/
def execMulh (sgn : Bool) (d a b : SReg) (s : State) : Out :=
  .next (s.retireTo d (mulHigh sgn (s.sreg a) (s.sreg b)))

/-- R300. -/
def execDiv (sgn : Bool) (d a b : SReg) (s : State) : Out :=
  .next ((s.noteIdz (s.sreg b)).retireTo d (quotient sgn (s.sreg a) (s.sreg b)))

/-- R350. -/
def execRem (sgn : Bool) (d a b : SReg) (s : State) : Out :=
  .next ((s.noteIdz (s.sreg b)).retireTo d (remainder sgn (s.sreg a) (s.sreg b)))

/-- R279. -/
def execAnd (d a b : SReg) (s : State) : Out := .next (s.retireTo d (s.sreg a &&& s.sreg b))

/-- R338. -/
def execOr (d a b : SReg) (s : State) : Out := .next (s.retireTo d (s.sreg a ||| s.sreg b))

/-- R416. -/
def execXor (d a b : SReg) (s : State) : Out := .next (s.retireTo d (s.sreg a ^^^ s.sreg b))

/-- R369. -/
def execShl (d a b : SReg) (s : State) : Out := .next (s.retireTo d (s.sreg a <<< ((s.sreg b).toNat % 64)))

/-- R369. -/
def execShr (d a b : SReg) (s : State) : Out := .next (s.retireTo d (s.sreg a >>> ((s.sreg b).toNat % 64)))

/-- R369. -/
def execSra (d a b : SReg) (s : State) : Out := .next (s.retireTo d ((s.sreg a).sshiftRight ((s.sreg b).toNat % 64)))

/-- R324. -/
def execMin (sgn : Bool) (d a b : SReg) (s : State) : Out :=
  .next (s.retireTo d (if lesser sgn (s.sreg b) (s.sreg a) then s.sreg b else s.sreg a))

/-- R324. -/
def execMax (sgn : Bool) (d a b : SReg) (s : State) : Out :=
  .next (s.retireTo d (if lesser sgn (s.sreg a) (s.sreg b) then s.sreg b else s.sreg a))

/-- R295. -/
def execCmp (cond : BitVec 4) (d a b : SReg) (s : State) : Out :=
  .next (if condOk cond then s.retireTo d (if condHolds cond (s.sreg a) (s.sreg b) then 1 else 0) else s.illegal)

/-- R296. -/
def execCsel (d a b c : SReg) (s : State) : Out :=
  .next (s.retireTo d (if s.sreg c ≠ 0 then s.sreg a else s.sreg b))

/-! ## Immediates and bit fields -/

/-- R335. -/
def execNop (s : State) : Out := .next s.retire

/-- R280. -/
def execAddi (d a : SReg) (imm : BitVec 20) (s : State) : Out :=
  .next (s.retireTo d (s.sreg a + imm.signExtend 64))

/-- R321. -/
def execLi (d : SReg) (imm : BitVec 50) (s : State) : Out := .next (s.retireTo d (imm.signExtend 64))

/-- R290. -/
def execBfx (d a : SReg) (lsb wm1 : BitVec 6) (s : State) : Out :=
  .next (if WellFormed (.bfx d a lsb wm1) then s.retireTo d ((s.sreg a >>> lsb.toNat) &&& fieldMask wm1)
    else s.illegal)

/-- R290. -/
def execBfi (d a : SReg) (lsb wm1 : BitVec 6) (s : State) : Out :=
  .next (if WellFormed (.bfi d a lsb wm1) then
      s.retireTo d ((s.sreg d &&& ~~~(fieldMask wm1 <<< lsb.toNat))
        ||| ((s.sreg a &&& fieldMask wm1) <<< lsb.toNat))
    else s.illegal)

/-! ## Branches (R288) -/

/-- R288. -/
def execB (cond : BitVec 4) (a b : SReg) (imm : BitVec 20) (s : State) : Out :=
  .next (if !condOk cond then s.illegal
    else if condHolds cond (s.sreg a) (s.sreg b) then s.branch (branchTo s.me.r.pc imm) else s.retire)

/-- R288. -/
def execJ (imm : BitVec 20) (s : State) : Out := .next (s.branch (branchTo s.me.r.pc imm))

/-- R288: a bad target leaves s[D] as it was. -/
def execJal (d : SReg) (imm : BitVec 20) (s : State) : Out :=
  .next (if targetOk (branchTo s.me.r.pc imm) then
      (s.modMe fun p => p.modR fun r => r.put d (r.pc + 8)).jumpTo (branchTo s.me.r.pc imm)
    else s.illegal)

/-- R288. -/
def execJr (a : SReg) (s : State) : Out := .next (s.branch (s.sreg a))

/-! ## Special registers (R260, R368) -/

/-- A window's 128 bits (R74). -/
def Window.lo (w : Window) : W64 :=
  w.tacc.setWidth 64 ||| (w.tsp.setWidth 64 <<< 11) ||| ((if w.valid then 1 else 0) <<< 17)
    ||| ((if w.err then 1 else 0) <<< 18) ||| (w.ecause.setWidth 64 <<< 19) ||| (w.key.setWidth 64 <<< 32)
def Window.hi (w : Window) : W64 :=
  w.rbase.setWidth 64 ||| (w.allow.setWidth 64 <<< 32) ||| (w.outst.setWidth 64 <<< 48)

/-- CHWP of a channel (R84). PAUSED: waiting on translation or a full bit. -/
def Channel.chwp (c : Channel) : W64 :=
  let paused := match c.run with
    | some r => (match r.pend with
      | .line _ _ => true
      | .repair _ _ => true
      | _ => false)
    | none => false
  c.wp.setWidth 64 ||| (c.cause.setWidth 64 <<< 48) ||| ((if c.err then 1 else 0) <<< 58)
    ||| ((if c.part then 1 else 0) <<< 59) ||| ((if paused then 1 else 0) <<< 60)
    ||| ((if c.run.isSome then 1 else 0) <<< 61)

/-- The value of special register `n` (R260). -/
def specialGet (s : State) (n : Nat) : W64 :=
  let p := s.me
  let i := p.id
  match n with
  | 0x000 => i.seat.setWidth 64
  | 0x001 => i.gangn.setWidth 64
  | 0x002 => i.x.setWidth 64
  | 0x003 => i.y.setWidth 64
  | 0x004 => i.z.setWidth 64
  | 0x005 => i.w.setWidth 64
  | 0x006 => i.launchId.setWidth 64
  | 0x007 => BitVec.ofNat 64 i.ctx.val
  | 0x008 => p.r.slk[0].setWidth 64
  | 0x009 => p.r.slk[1].setWidth 64
  | 0x00A => p.r.slk[2].setWidth 64
  | 0x00B => p.r.slk[3].setWidth 64
  | 0x00C => p.r.trapPc
  | 0x00D => p.r.trapCause
  | 0x00E => p.r.aflags.setWidth 64
  | 0x00F => p.r.afenable.setWidth 64
  | 0x010 => p.r.ttbase
  | 0x011 => BitVec.ofNat 64 s.time
  | 0x012 => p.pwrlim.setWidth 64
  | 0x013 => p.r.freezes.setWidth 64
  | n =>
    if n < 0x40 then (p.str.chans[(Fin.ofNat 16 n)]).chwp
    else if n % 2 = 0 then (p.r.win[(Fin.ofNat 16 ((n - 0x40) / 2))]).lo
    else (p.r.win[(Fin.ofNat 16 ((n - 0x40) / 2))]).hi

/-- R368. -/
def execSget (d : SReg) (num : BitVec 12) (s : State) : Out :=
  .next (if sgetOk num then s.retireTo d (specialGet s num.toNat) else s.illegal)

/-- The RW and RS fields of a special register take their bits from `v`; every other bit stays (R177, R199, R200,
R80). -/
def specialSet (r : ScpRegs) (n : Nat) (v : W64) : ScpRegs :=
  match n with
  | 0x008 => { r with slk := r.slk.set 0 (v.setWidth 12) }
  | 0x009 => { r with slk := r.slk.set 1 (v.setWidth 12) }
  | 0x00A => { r with slk := r.slk.set 2 (v.setWidth 12) }
  | 0x00B => { r with slk := r.slk.set 3 (v.setWidth 12) }
  | 0x00C => { r with trapPc := v &&& 0x00FF_FFFF_FFFF_FFF8 }
  | 0x00D => { r with trapCause := (v &&& ~~~(0x3FF : W64)) ||| (r.trapCause &&& 0x3FF) }
  | 0x00E => { r with aflags := v.setWidth 7 }
  | 0x00F => { r with afenable := v.setWidth 7 }
  | 0x010 => { r with ttbase := v &&& 0x00FF_FFFF_FFFF_FFFF }
  | _ => r

/-- R368. -/
def execSset (a : SReg) (num : BitVec 12) (s : State) : Out :=
  .next (if ssetOk num then (s.modMe fun p => p.modR fun r => specialSet r num.toNat (s.sreg a)).retire else s.illegal)

/-- wset's new fields (R411). -/
def Window.load (w : Window) (lo hi : W64) : Window :=
  { w with
    tacc := lo.setWidth 11, tsp := (lo >>> 11).setWidth 6, valid := lo.getLsbD 17, key := (lo >>> 32).setWidth 32
    rbase := hi.setWidth 23, allow := if (hi >>> 32).setWidth 10 = (0 : BitVec 10) then 1 else (hi >>> 32).setWidth 10
    err := false, ecause := 0 }

/-- R75, R411: a nonzero RBASE[6:0] faults; the instruction waits for OUTST to reach 0; a sticky error is delivered and
leaves the window as it is. -/
def execWset (k : BitVec 4) (a b : SReg) (s : State) : Out :=
  let w := s.me.r.win[k.toFin]
  .next (if s.sreg b &&& 0x7F ≠ 0 then s.fatal cFMisaligned
    else if w.outst ≠ 0 then s.waits
    else if w.err then s.fatal w.ecause
    else
      (s.modMe fun p => p.modR fun r =>
        { r with win := r.win.set k.toFin (r.win[k.toFin].load (s.sreg a) (s.sreg b)) }).retire)

end Sys2Proof.Machine
end

