-- ==== Sys2Proof/Machine/ScpMem.lean ====
section
/-! DEFINITION. The memory instructions of the SCP (R283 to R285, R315 to R318, R374 to R377), the weak stores and the
store-fault buffer (R154 to R156), releases (R144), and accesses through windows and REMOTE pages (R75 to R77, R175). -/

namespace Sys2Proof.Machine

open Sys2Proof

/-! ## Weak stores (R154) -/

/-- A store in flight is performed. -/
def performStore (s : State) (w : WeakStore) : State :=
  let d := leBytes (2 ^ w.size.toNat) w.data.toNat
  match w.f with
  | none => s.physWrite w.pa d
  | some t => s.modSp t fun p => p.fWrite w.pa d

/-- A store in flight touches a unit of 8 bytes among `n` bytes at a place. -/
def WeakStore.touches (w : WeakStore) (f : Option SpId) (pa n : Nat) : Bool :=
  w.f = f && decide (pa / 8 ≤ w.pa / 8) && decide (w.pa / 8 ≤ (pa + n - 1) / 8)

/-- The `k`-th queued store of an SP is performed; an earlier one to its unit goes first unless the page is UN
(R140, R141). -/
def performWeak (s : State) (sp : SpId) (k : Nat) : State :=
  let q := (s.sp sp).sto.weak
  match q[k]? with
  | none => s
  | some w =>
    if !w.un && (q.take k).any (fun x => x.touches w.f w.pa 1) then s
    else (performStore s w).modSp sp fun p => { p with sto := { p.sto with weak := p.sto.weak.eraseIdx k } }

/-- Performs the queued stores that `f` selects, in order. -/
def drainIf (f : WeakStore → Bool) (s : State) (sp : SpId) : State :=
  let q := (s.sp sp).sto.weak
  ((q.filter f).foldl performStore s).modSp sp
    fun p => { p with sto := { p.sto with weak := q.filter fun w => !f w } }

/-- Performs every queued store of the strand under execution. -/
def State.drainWeak (s : State) : State := drainIf (fun _ => true) s s.cur

/-- Performs those that touch the 8-byte units of `n` bytes of memory at `pa` (R140). -/
def State.drainUnits (s : State) (pa n : Nat) : State := drainIf (fun w => w.touches none pa n) s s.cur

/-- Lays the bytes of one store over those read at `pa`. -/
def overStore (pa : Nat) (d : List Byte) (w : WeakStore) : List Byte :=
  let b := leBytes (2 ^ w.size.toNat) w.data.toNat
  d.zipIdx.map fun x => if w.pa ≤ pa + x.2 then (b[pa + x.2 - w.pa]?).getD x.1 else x.1

/-- FREE VALUE (log 106). The bytes that an access of a UN page reads at `pa`: of the strand's own queued stores there it sees
those that a free bit each selects (R141). -/
def State.readUn (s : State) (pa n : Nat) : List Byte :=
  ((s.me.sto.weak.zipIdx.filter fun w => w.1.f = none && Config.freeBit s.tick (300 + w.2)).map Prod.fst).foldl
    (overStore pa) (s.physRead pa n)

/-- Performs those that touch the 8-byte units of `n` bytes of an SRF (R140). -/
def State.drainLine (s : State) (sp : SpId) (off n : Nat) : State := drainIf (fun w => w.touches (some sp) off n) s s.cur

/-! ## Posted remote writes (R144, R164) -/

/-- Posted remote stores of the strand that are not yet acknowledged (R164). -/
def weakTxns (s : State) (sp : SpId) : List SfRecord :=
  s.dev.txns.filterMap fun t => match t.who with
    | .weak i r => if i = sp then some r else none
    | _ => none

/-- The strand's SCP wrote through this transaction. -/
def Txn.ofScp (t : Txn) (sp : SpId) : Bool :=
  match t.who with
  | .weak i _ => i = sp
  | .window i _ none => i = sp
  | _ => false

/-- An unacknowledged write of the strand touches a unit of `n` bytes at a remote address (R140, R164). -/
def remoteBusy (s : State) (sp : SpId) (acc : BitVec 11) (addr n : Nat) : Bool :=
  s.dev.txns.any fun t => t.ofScp sp && t.h.dst = acc
    && decide (addr / 8 ≤ (t.h.addr.toNat + t.h.len.toNat) / 8) && decide (t.h.addr.toNat / 8 ≤ (addr + n - 1) / 8)

/-! ## Accesses that loop back to this device (R140, R169) -/

/-- Where the bytes of a request to this device's own ID begin: in the SRF of an SP, or in memory. -/
def loopPlace (s : State) (key : W32) (addr : Nat) : Option (Option SpId × Nat) :=
  match regionOf s key with
  | none => none
  | some r =>
    if r.srf then
      (regionGang s r).bind fun g =>
        ((g.2.seats[addr / 2 ^ 23 % 64]?).bind Seat.sp).map fun sp => (some sp, addr % 2 ^ 23)
    else
      match translate s .none r.ctx (addr % 2 ^ 56) .read .outside with
      | .ok lf => some (none, lf.pa (addr % 2 ^ 56))
      | .error _ => none

/-- A write of the strand that loops back to this device is not yet acknowledged and touches a unit of `n` bytes at a place. The
writes of window `via` keep their order among themselves (R164). -/
def loopBusy (s : State) (via : Option (Fin 16)) (f : Option SpId) (pa n : Nat) : Bool :=
  s.dev.txns.any fun t => t.ofScp s.cur && t.h.dst = s.dev.accId
    && (match t.who, via with
      | .window _ j _, some k => j != k
      | _, _ => true)
    && match loopPlace s t.h.key t.h.addr.toNat with
      | some (g, a) => g = f && decide (pa / 8 ≤ (a + t.h.len.toNat) / 8) && decide (a / 8 ≤ (pa + n - 1) / 8)
      | none => false

/-- A local access to `n` bytes at a place comes after the strand's own writes there that loop back (R140). -/
def State.selfGate (s : State) (f : Option SpId) (pa n : Nat) (k : State → State) : State :=
  if loopBusy s none f pa n then s.waits else k s

/-- An access to a target of the fabric that is this device itself comes after the strand's earlier accesses to the same units: its
queued stores are performed, and it waits for its writes that loop back (R140, R169). -/
def State.loopGate (s : State) (via : Option (Fin 16)) (acc : BitVec 11) (key : W32) (addr n : Nat) (k : State → State) : State :=
  if acc = s.dev.accId then
    let m := min n (256 - addr % 256)
    let l := [(addr, m), (addr + m, n - m)].filterMap fun x =>
      if x.2 = 0 then none else (loopPlace s key x.1).map fun p => (p.1, p.2, x.2)
    if l.any fun p => loopBusy s via p.1 p.2.1 p.2.2 then s.waits
    else k (l.foldl (fun t p => drainIf (fun w => w.touches p.1 p.2.1 p.2.2) t t.cur) s)
  else k s

/-- Records, and weak stores issued and not performed (R154). -/
def storeCount (s : State) (sp : SpId) : Nat :=
  (s.sp sp).sto.records.length + ((s.sp sp).sto.weak.filter fun w => w.f.isNone).length + (weakTxns s sp).length

/-- A translation cause of a plain store with no page kind (steps 1 to 3 of R203). -/
def walkCause (c : Cause) : Bool := c = cVaRange || c = cPageNotPresent || c = cPteBad

/-! ## Delivery of store faults (R154, R156) -/

/-- Delivery, precise at the instruction under execution: the strand stays at it until the records have been replayed
(STORE_FAULT_REPLAY). A page-in deschedules the gang (R425; log 82); a record that cannot be repaired fails the task. -/
def State.deliver (s : State) : State :=
  match recordOf s s.cur .no with
  | some r => failStrand s s.cur r.cause
  | none =>
    match recordOf s s.cur .pageIn with
    | some r => stopFaulted s s.cur r.cause r.va
    | none => s.modMe fun p => { p with sto := { p.sto with delivered := true } }

/-- The strand has records that have been delivered and not yet replayed: it executes no instruction (R156). -/
def Sp.replaying (p : Sp) : Bool := p.sto.delivered && !p.sto.records.isEmpty

/-- Runs `k` unless a store fault is to be delivered first. -/
def State.deliverFirst (s : State) (k : State → State) : State :=
  if s.me.sto.records.isEmpty then k s else s.deliver

/-- R154 for a memory instruction: delivery when the buffer is full, or when the access touches a unit that a record
covers. -/
def State.memGate (s : State) (units : Option (Nat × Nat)) (k : State → State) : State :=
  let r := s.me.sto.records
  let hit := match units with
    | none => false
    | some (va, n) => r.any fun x => decide (va / 8 ≤ x.va.toNat / 8) && decide (x.va.toNat / 8 ≤ (va + n - 1) / 8)
  if hit || r.length = 16 then s.deliver else k s

/-! ## Releases (R144, R301) -/

/-- Whether a window's target lies within a scope (R77). -/
def winInScope (s : State) (w : Window) (scope : BitVec 3) : Bool :=
  decide (4 ≤ scope.toNat) || (scope = 3 && w.tacc = s.dev.accId)

/-- The error that a release or fence of a scope delivers (R77). -/
def windowErr (s : State) (scope : BitVec 3) : Option Cause :=
  (s.me.r.win.toList.find? fun w => w.err && winInScope s w scope).map Window.ecause

/-- Posted remote writes that a release at domain or system scope waits for: those of the SCP and those of kernels whose
tag the strand has awaited (R144). -/
def remoteOpen (s : State) : Bool := s.dev.txns.any fun t => t.ofScp s.cur

/-- Waits for the acknowledgements that the scope asks for, traps with a window's error, or goes on (R301). -/
def State.windowGate (s : State) (scope : BitVec 3) (k : State → State) : State :=
  if 4 ≤ scope.toNat ∧ remoteOpen s = true then s.waits
  else
    match windowErr s scope with
    | some c => s.fatal c
    | none => k s

/-- A release at a scope, then `k` (R144, R154). -/
def State.release (s : State) (scope : BitVec 3) (k : State → State) : State :=
  s.deliverFirst fun t => t.drainWeak.windowGate scope k

/-- The order field of an access: a release when it is 2 or 3. -/
def State.orderGate (s : State) (order : BitVec 2) (scope : BitVec 3) (k : State → State) : State :=
  if order.getLsbD 1 then s.release scope k else k s

/-! ## Requests of the SCP -/

/-- SLK[URG] of the strand (R176). -/
def State.slack (s : State) (urg : BitVec 2) : BitVec 12 := s.me.r.slk[urg.toFin]

/-- Sends a request and waits for its answer; `got` holds what earlier packets brought. -/
def scpAsk (s : State) (r : Sent) (got : List Byte) : State :=
  match r with
  | .ok tag t => t.modMe fun p => { p with pend := .remote tag none got }
  | .wait => s.waits
  | .unreachable => s.fatal cAccUnreachable

/-- What a read of the SCP comes to. -/
inductive Got where
  | data (d : List Byte) (s : State)
  | stop (s : State)

/-- Reads `n` bytes of G-space as a load of the strand: `got` holds the bytes already read. `fuel` bounds the pieces. On a
UN page a read that is not `strict` may miss the strand's own stores in flight (R141). Every piece is a packet, on the chip or off
it (R165). -/
def scpReadFrom (urg : BitVec 2) (strict : Bool) (va n : Nat) : Nat → State → Pend → List Byte → Got
  | 0, s, _, _ => .stop s
  | fuel + 1, s, pend, got =>
    if n ≤ got.length then .data (got.take n) s
    else
      let a := va + got.length
      let ctx := s.myCtx
      match translate s (.sp s.cur) ctx a .read .scp with
      | .error c => .stop (s.faultAt c a)
      | .ok lf =>
        let s1 := fillTlb s (.sp s.cur) ctx lf
        let k := min (n - got.length) (4096 - a % 4096)
        let own := strict || lf.ord != 2
        if lf.kind = 1 then
          match pend with
          | .remote _ (some (.data d)) _ => scpReadFrom urg strict va n fuel s1 .none (got ++ d)
          | .remote _ (some (.err c)) _ => .stop (s1.fatal c)
          | .remote _ none _ => .stop s1.waits
          | _ =>
            let (acc, key, addr) := lf.remote a
            let m := min k (256 - addr % 256)
            let ask (t : State) : State :=
              scpAsk t (sendReq t (.scp t.cur) ctx (ssidScp t.cur) tREAD 0 acc key addr m (t.slack urg) false []) got
            if own || Config.freeBit s.tick 2 then
              .stop (if remoteBusy s1 s1.cur acc addr m then s1.waits else s1.loopGate none acc key addr m ask)
            else .stop (ask s1)
        else
          let s2 := s1.chip ctx (ssidScp s1.cur) (s1.slack urg) (blocks a k)
          if poisoned s2.dev.poison (lf.pa a) k then .stop (s2.faultAt cMediaError a)
          else if own && loopBusy s1 none none (lf.pa a) k then .stop s1.waits
          else if own then
            let s3 := s2.drainUnits (lf.pa a) k
            scpReadFrom urg strict va n fuel s3 pend (got ++ s3.physRead (lf.pa a) k)
          else scpReadFrom urg strict va n fuel s2 pend (got ++ s2.readUn (lf.pa a) k)

/-- What earlier packets of the access under execution have brought or carried. -/
def Pend.sofar : Pend → List Byte
  | .remote _ _ g => g
  | _ => []

/-- Reads `n` bytes of G-space at `va` at urgency `urg`. -/
def scpRead (s : State) (urg : BitVec 2) (va n : Nat) : Got :=
  scpReadFrom urg false va n (n + 2) s s.me.pend s.me.pend.sofar

/-- Reads after every earlier access of the strand to the bytes. -/
def scpReadStrict (s : State) (urg : BitVec 2) (va n : Nat) : Got :=
  scpReadFrom urg true va n (n + 2) s s.me.pend s.me.pend.sofar

/-- Goes on with the bytes read. -/
def Got.andThen (g : Got) (k : List Byte → State → State) : State :=
  match g with
  | .data d s => k d s
  | .stop s => s

/-- The address of a memory instruction (R316, R375). -/
def memAddr (s : State) (a : SReg) (imm : BitVec 20) : Nat := (s.sreg a + imm.signExtend 64).toNat
def accessBytes (m : MemMod) : Nat := 2 ^ m.size.toNat

/-! ## F-space accesses (R66 to R70, R75, R76) -/

/-- R168: the address of an access through a window. -/
def winAddr (w : Window) (off : Nat) : Nat := 2 ^ 56 + w.tsp.toNat * 2 ^ 23 + w.rbase.toNat + off

/-- A request that is not posted, through window `k`; it waits for the strand's own writes to its units (R140). -/
def winAsk (s : State) (urg : BitVec 2) (k : Fin 16) (off n : Nat) (typ : BitVec 6) (aop : BitVec 4) (d : List Byte) :
    State :=
  let w := s.me.r.win[k]
  if remoteBusy s s.cur w.tacc (winAddr w off) n then s.waits
  else s.loopGate none w.tacc w.key (winAddr w off) n fun s =>
    scpAsk s (sendReq s (.scp s.cur) s.myCtx (ssidWindow s.cur k) typ aop w.tacc w.key (winAddr w off) n (s.slack urg)
      false d) []

/-- Waits while the line at `off` of an SRF is empty (R70); goes on once it is full. -/
def lineGate (s : State) (sp : SpId) (off : Nat) (k : State → State) : State :=
  if (s.sp sp).full off then k s
  else
    match s.me.pend with
    | .line _ _ => s.waits
    | _ => s.modMe fun p => { p with pend := .line s.time (feLimit s (dieOf s.cur)) }

/-- The checks that every F-space access makes first: the address range and alignment. -/
def fGate (s : State) (addr n : Nat) (k : State → State) : State :=
  if addr ≥ 2 ^ 32 then s.faultAt cFSpaceHole addr
  else if addr % n ≠ 0 then s.faultAt cFMisaligned addr
  else k s

/-- The answer of a non-posted request, if it has come. -/
def replyGate (s : State) (send : State → State) (k : List Byte → State → State) : State :=
  match s.me.pend with
  | .remote _ (some (.data d)) g => k (g ++ d) s
  | .remote _ (some (.err c)) _ => s.fatal c
  | .remote _ none _ => s.waits
  | _ => send s

/-! ## Loads -/

/-- The value a load writes. -/
def State.loaded (s : State) (d : SReg) (b : List Byte) : State := s.retireTo d (BitVec.ofNat 64 (leNat b))

/-- R315 to R318. -/
def ldgAct (m : MemMod) (d a : SReg) (imm : BitVec 20) (s : State) : State :=
  let addr := memAddr s a imm
  let n := accessBytes m
  if addr % n ≠ 0 then s.faultAt cGMisaligned addr
  else s.memGate (some (addr, n)) fun t =>
    (scpRead t m.urg addr n).andThen fun b u => u.loaded d b

/-- R315 to R318. -/
def execLdg (m : MemMod) (d a : SReg) (imm : BitVec 20) (s : State) : Out :=
  .next (if WellFormed (.ldg m d a imm) then ldgAct m d a imm s else s.illegal)

/-- The packet of an access to the SRF of another SP of the gang (R165); an access to the own SRF makes none. -/
def State.chipSeat (s : State) (urg : BitVec 2) (sp : SpId) : State :=
  if sp = s.cur then s else s.chip s.myCtx (ssidScp s.cur) (s.slack urg) 1

/-- R316, R317. -/
def ldfAct (m : MemMod) (d a : SReg) (imm : BitVec 20) (s : State) : State :=
  let addr := memAddr s a imm
  let n := accessBytes m
  fGate s addr n fun t => t.memGate none fun t =>
    match t.fDecode t.cur addr with
    | .hole => t.faultAt cFSpaceHole addr
    | .srf sp off =>
      lineGate t sp off fun u =>
        u.selfGate (some sp) off n fun u =>
          let v := (u.chipSeat m.urg sp).drainLine sp off n
          v.loaded d ((v.sp sp).fBytes off n)
    | .window k off => replyGate t (fun u => winAsk u m.urg k off n tREAD 0 []) fun b u => u.loaded d b

/-- R315 to R318. -/
def execLdf (m : MemMod) (d a : SReg) (imm : BitVec 20) (s : State) : Out :=
  .next (if WellFormed (.ldf m d a imm) then ldfAct m d a imm s else s.illegal)

/-! ## Stores -/

/-- The strand has issued one more store (R155). -/
def State.countStore (s : State) : State := s.modMe fun p => { p with sto := { p.sto with seq := p.sto.seq + 1 } }

/-- The low bytes of a store's data. -/
def storeBytes (n : Nat) (v : W64) : List Byte := leBytes n v.toNat

/-- What the store-fault buffer would hold of a store. -/
def storeRec (s : State) (addr n : Nat) (size : BitVec 2) (v : W64) (c : Cause) : SfRecord :=
  ⟨BitVec.ofNat 64 (addr % 2 ^ 56), BitVec.ofNat 64 (v.toNat % 256 ^ n), size, c, s.me.sto.seq⟩

/-- A non-posted write to a REMOTE page (R151, R175): its packets end at the 256-byte blocks of ADDR (R161), and it retires
when the last one is acknowledged. It waits for the strand's own posted writes to its units (R139). -/
def npwrAct (s : State) (urg : BitVec 2) (lf : Leaf) (addr n : Nat) (v : W64) : State :=
  let send (t : State) (done : List Byte) : State :=
    let a := addr + done.length
    let (acc, key, ra) := lf.remote a
    let d := ((storeBytes n v).drop done.length).take (lf.room a)
    if remoteBusy t t.cur acc ra d.length then t.waits
    else t.loopGate none acc key ra d.length fun t =>
      scpAsk t (sendReq t (.scp t.cur) t.myCtx (ssidScp t.cur) tNPWR 0 acc key ra d.length (t.slack urg) false d)
        (done ++ d)
  match s.me.pend with
  | .remote _ (some (.data _)) g => if n ≤ g.length then s.countStore.retire else send s g
  | .remote _ (some (.err c)) _ => s.fatal c
  | .remote _ none _ => s.waits
  | _ => send s []

/-- Sends the packets of a posted store, with its record; `none` when no tag is free. -/
def weakSend (urg : BitVec 2) (lf : Leaf) (r : SfRecord) : Nat → State → Nat → List Byte → Option State
  | 0, s, _, _ => some s
  | fuel + 1, s, a, d =>
    if d.isEmpty then some s
    else
      let (acc, key, ra) := lf.remote a
      let k := min d.length (lf.room a)
      match sendReq s (.weak s.cur r) s.myCtx (ssidScp s.cur) tPWR 0 acc key ra k (s.slack urg) false (d.take k) with
      | .ok _ t => weakSend urg lf r fuel t (a + k) (d.drop k)
      | .wait => none
      | .unreachable => some (s.modMe fun p => addRecord p { r with cause := cAccUnreachable })

/-- A weak store (R154, R377). -/
def weakAct (s : State) (m : MemMod) (addr : Nat) (v : W64) (tr : Except Cause Leaf) : State :=
  let n := accessBytes m
  if storeCount s s.cur ≥ 16 then s.waits
  else
    match tr with
    | .error c =>
      let t := s.countStore
      (t.modMe fun p => addRecord p (storeRec t addr n m.size v c)).retire
    | .ok lf =>
      if lf.kind = 1 then
        let (acc, key, ra) := lf.remote addr
        if remoteBusy s s.cur acc ra n then s.waits
        else s.loopGate none acc key ra n fun s =>
          let t := s.countStore
          match weakSend m.urg lf (storeRec t addr n m.size v 0) n t addr (storeBytes n v) with
          | some u => u.retire
          | none => s.waits
      else if lf.ord != 2 && loopBusy s none none (lf.pa addr) n then s.waits
      else
        let t := s.countStore.chip s.myCtx (ssidScp s.cur) (s.slack m.urg) 1
        (t.modMe fun p => { p with sto := { p.sto with weak := p.sto.weak ++
          [⟨none, lf.pa addr, lf.ord = 2, BitVec.ofNat 64 addr, v, m.size, p.sto.seq⟩] } }).retire

/-- A copy enters the queue of its channel. -/
def pushCopy (s : State) (sp : SpId) (o : StreamOp) (ch : ChId) : State :=
  s.modSp sp fun p => p.modStr fun x =>
    { x.modChan ch (fun c => { c with queue := c.queue ++ [o] }) with num := x.num + 1 }

/-- A copy reads after the stores that a fence stands behind (R149, R301): they are performed, and posted ones are
acknowledged. -/
def State.fenceGate (s : State) (k : State → State) : State :=
  let f := s.me.sto.fence.toNat
  if (weakTxns s s.cur).any fun r => decide (r.seq.toNat ≤ f) then s.waits
  else k (drainIf (fun w => decide (w.seq.toNat ≤ f)) s s.cur)

/-- An APERTURE store (R78, R79): the template is read as a plain load of the strand at urgency class 0. The copy's class is
the one that this read shows, 0 when the index is above NENT (log 105). -/
def apertureAct (s : State) (addr : Nat) (v : W64) : State :=
  let off := addr % 0x1_0000
  if off % 0x1000 ≠ 0 then s.faultAt cApertureMisuse addr
  else s.fenceGate fun s =>
    let ti : BitVec 16 := v.setWidth 16
    let tb := s.me.r.ttbase
    let ch : ChId := Fin.ofNat 16 (off / 0x1000)
    let start (t : State) (urg : BitVec 2) : State :=
      let o : StreamOp := ⟨t.me.str.num, none, 0, urg, t.slack urg,
        .copy ti ((v >>> 32).setWidth 32) tb ch ((v >>> 16).setWidth 16)⟩
      (pushCopy t.countStore t.cur o ch).retire
    if templateIn tb ti then
      s.memGate (some (templateAddr tb ti, 64)) fun s =>
        (scpRead s 0 (templateAddr tb ti) 64).andThen fun b t =>
          let x := parseTemplate b
          start (emptyDest t t.cur x) x.slkc
    else start s 0

/-- A store to a valid leaf that admits it, precise (R376). -/
def stgPrecise (s : State) (m : MemMod) (addr : Nat) (v : W64) (lf : Leaf) : State :=
  let n := accessBytes m
  if lf.kind = 2 then apertureAct s addr v
  else if lf.kind = 1 then npwrAct s m.urg lf addr n v
  else s.selfGate none (lf.pa addr) n fun s =>
    (((s.drainUnits (lf.pa addr) n).countStore.chip s.myCtx (ssidScp s.cur) (s.slack m.urg) 1).physWrite (lf.pa addr)
      (storeBytes n v)).retire

/-- FREE VALUE (log 104). Whether a bad RMT entry faults a plain store to an RC or UN page precisely, as R174 has it of the SCP,
or makes a record of a weak store, as R154 and R377 have it of every fault of one. -/
def mapFaultPrecise (tick : Nat) (c : Cause) : Bool := c == cRemoteMapInvalid && Config.freeBit tick 8

/-- R374 to R377, R79, R154. -/
def stgAct (m : MemMod) (a b : SReg) (imm : BitVec 20) (s : State) : State :=
  let addr := memAddr s a imm
  let n := accessBytes m
  let v := s.sreg b
  if addr % n ≠ 0 then s.faultAt cGMisaligned addr
  else s.memGate (some (addr, n)) fun s => s.orderGate m.order m.scope fun s =>
    let ag : Agent := if m.size = 3 then .scpStg8 else .scp
    let ctx := s.myCtx
    match lookup s (.sp s.cur) ctx addr with
    | .error c => if m.order = 0 ∧ walkCause c = true then weakAct s m addr v (.error c) else s.faultAt c addr
    | .ok lf =>
      let s1 := fillTlb s (.sp s.cur) ctx lf
      let weak := m.order = 0 && lf.ord != 0 && lf.kind != 2
      match checkUse s1 lf .write ag with
      | some c => if weak && !mapFaultPrecise s1.tick c then weakAct s1 m addr v (.error c) else s1.faultAt c addr
      | none => if weak then weakAct s1 m addr v (.ok lf) else stgPrecise s1 m addr v lf

/-- R374 to R377. -/
def execStg (m : MemMod) (a b : SReg) (imm : BitVec 20) (s : State) : Out :=
  .next (if WellFormed (.stg m a b imm) then stgAct m a b imm s else s.illegal)

/-- The fields of a window after a posted write through it has been sent (R76). -/
def Window.sent (w : Window) : Window := { w with outst := w.outst + 1 }

/-- A full/empty-setting posted write through window `k` of an SP (R76, R175); `none` when no tag is free; `kern`
is the krun tag of a kernel's write. -/
def winPost (s : State) (sp : SpId) (kern : Option TagId) (slack : BitVec 12) (k : Fin 16) (off : Nat) (d : List Byte) :
    Option State :=
  let w := (s.sp sp).r.win[k]
  let put (t : State) (f : Window → Window) : State :=
    t.modSp sp fun p => p.modR fun r => { r with win := r.win.set k (f r.win[k]) }
  match sendReq s (.window sp k kern) (s.sp sp).id.ctx (ssidWindow sp k) tFEWR 0 w.tacc w.key (winAddr w off) d.length slack
      true d with
  | .ok _ t => some (put t Window.sent)
  | .wait => none
  | .unreachable => some (put s fun x => x.fail cAccUnreachable)

/-- A store to an SRF goes into flight (R88): a copy that no fence stands before may still read the old bytes. -/
def srfStore (s : State) (sp : SpId) (off addr : Nat) (v : W64) (size : BitVec 2) : State :=
  s.countStore.modMe fun p => { p with sto := { p.sto with weak := p.sto.weak ++
    [⟨some sp, off, false, BitVec.ofNat 64 addr, v, size, p.sto.seq⟩] } }

/-- R374 to R377, R68, R76. -/
def stfAct (m : MemMod) (a b : SReg) (imm : BitVec 20) (s : State) : State :=
  let addr := memAddr s a imm
  let n := accessBytes m
  let v := s.sreg b
  fGate s addr n fun s => s.memGate none fun s => s.orderGate m.order m.scope fun s =>
    match s.fDecode s.cur addr with
    | .hole => s.faultAt cFSpaceHole addr
    | .srf sp off => s.selfGate (some sp) off n fun s => (srfStore (s.chipSeat m.urg sp) sp off addr v m.size).retire
    | .window k off =>
      let w := s.me.r.win[k]
      if w.outst = w.allow then s.waits
      else s.loopGate (some k) w.tacc w.key (winAddr w off) n fun s =>
        match winPost s.countStore s.cur none (s.slack m.urg) k off (storeBytes n v) with
        | some t => t.retire
        | none => s.waits

/-- R374 to R377. -/
def execStf (m : MemMod) (a b : SReg) (imm : BitVec 20) (s : State) : Out :=
  .next (if WellFormed (.stf m a b imm) then stfAct m a b imm s else s.illegal)

/-! ## Atomics (R283 to R285) -/

/-- The operand of s[B], and the new value of s[C], cut to the access. -/
def amoOperand (n : Nat) (v : W64) : Nat := v.toNat % 256 ^ n

/-- The payload of an ATOM (R163). -/
def atomPayload (code : BitVec 4) (n : Nat) (v c : W64) : List Byte :=
  leBytes n v.toNat ++ (if code = 9 then leBytes n c.toNat else [])

/-- The new bytes. -/
def amoBytes (code : BitVec 4) (n : Nat) (old : List Byte) (v c : W64) : List Byte :=
  leBytes n (amoNew code (8 * n) (leNat old) (amoOperand n v) (amoOperand n c))

/-- R283 to R285. The release comes before the access, and is not made again while the answer is awaited. -/
def amogAct (m : MemMod) (code : BitVec 4) (d a b c : SReg) (s : State) : State :=
  let addr := (s.sreg a).toNat
  let n := accessBytes m
  let v := s.sreg b
  let w := s.sreg c
  if addr % n ≠ 0 then s.faultAt cGMisaligned addr
  else s.memGate (some (addr, n)) fun s =>
    let ctx := s.myCtx
    match translate s (.sp s.cur) ctx addr .amo .scp with
    | .error e => s.faultAt e addr
    | .ok lf =>
      (fillTlb s (.sp s.cur) ctx lf).orderGate m.order m.scope fun s =>
        let own := m.order != 0 || lf.ord != 2
        if lf.kind = 1 then
            replyGate s
              (fun t =>
                let (acc, key, ra) := lf.remote addr
                let ask (t : State) : State :=
                  scpAsk t (sendReq t (.scp t.cur) ctx (ssidScp t.cur) tATOM code acc key ra n (t.slack m.urg) false
                    (atomPayload code n v w)) []
                if own || Config.freeBit t.tick 2 then
                  if remoteBusy t t.cur acc ra n then t.waits else t.loopGate none acc key ra n ask
                else ask t)
              fun o t => t.loaded d o
        else
          let pa := lf.pa addr
          let u := s.chip ctx (ssidScp s.cur) (s.slack m.urg) 1
          let ord := own || Config.freeBit u.tick 2
          let t := if ord then u.drainUnits pa n else u
          if ord && loopBusy s none none pa n then s.waits
          else if poisoned t.dev.poison pa n then t.faultAt cMediaError addr
          else
            let old := t.physRead pa n
            (t.physWrite pa (amoBytes code n old v w)).loaded d old

/-- R283 to R285. -/
def execAmog (m : MemMod) (code : BitVec 4) (d a b c : SReg) (s : State) : Out :=
  .next (if WellFormed (.amog m code d a b c) then amogAct m code d a b c s else s.illegal)

/-- R283 to R285, R68. -/
def amofAct (m : MemMod) (code : BitVec 4) (d a b c : SReg) (s : State) : State :=
  let addr := (s.sreg a).toNat
  let n := accessBytes m
  let v := s.sreg b
  let w := s.sreg c
  fGate s addr n fun s => s.memGate none fun s =>
    match s.fDecode s.cur addr with
    | .hole => s.faultAt cFSpaceHole addr
    | .srf sp off =>
      s.orderGate m.order m.scope fun s => lineGate s sp off fun s => s.selfGate (some sp) off n fun s =>
        let s := (s.chipSeat m.urg sp).drainLine sp off n
        let old := (s.sp sp).fBytes off n
        (s.modSp sp fun p => p.fWrite off (amoBytes code n old v w)).loaded d old
    | .window k off =>
      s.orderGate m.order m.scope fun s =>
        replyGate s (fun t => winAsk t m.urg k off n tATOM code (atomPayload code n v w)) fun o t => t.loaded d o

/-- R283 to R285. -/
def execAmof (m : MemMod) (code : BitVec 4) (d a b c : SReg) (s : State) : Out :=
  .next (if WellFormed (.amof m code d a b c) then amofAct m code d a b c s else s.illegal)

/-! ## Replay of the delivered records (R156) -/

/-- A record leaves the buffer. -/
def dropRecord (s : State) (sp : SpId) (r : SfRecord) : State :=
  s.modSp sp fun p => { p with sto := { p.sto with records := p.sto.records.erase r } }

/-- Sends the packets of a replayed store; `none` when no tag is free. -/
def replaySend (ctx : CtxId) (sp : SpId) (lf : Leaf) (r : SfRecord) : Nat → State → Nat → List Byte → Option State
  | 0, s, _, _ => some s
  | fuel + 1, s, a, d =>
    if d.isEmpty then some s
    else
      let (acc, key, ra) := lf.remote a
      let k := min d.length (lf.room a)
      match sendReq s (.weak sp r) ctx (ssidScp sp) tPWR 0 acc key ra k ((s.sp sp).r.slk[0]) false (d.take k) with
      | .ok _ t => replaySend ctx sp lf r fuel t (a + k) (d.drop k)
      | .wait => none
      | .unreachable => some (s.modSp sp fun p => addRecord p { r with cause := cAccUnreachable })

/-- Performs one record as a plain store; `none` while its unit has an unacknowledged write or no tag is free (R164). -/
def replayOne (ctx : CtxId) (sp : SpId) (s : State) (r : SfRecord) : Option State :=
  match translate s .none ctx r.va.toNat .write .scp with
  | .error _ => none
  | .ok lf =>
    let n := 2 ^ r.size.toNat
    let d := leBytes n r.data.toNat
    let a := r.va.toNat
    if lf.kind = 1 then
      let (acc, _, ra) := lf.remote a
      if remoteBusy s sp acc ra n then none else replaySend ctx sp lf r n (dropRecord s sp r) a d
    else some (((dropRecord s sp r).chip ctx (ssidScp sp) ((s.sp sp).r.slk[0]) 1).physWrite (lf.pa a) d)

/-- Performs records in the order given, as far as they can be; true when all have been performed. -/
def replayAll (ctx : CtxId) (sp : SpId) : List SfRecord → State → State × Bool
  | [], s => (s, true)
  | r :: l, s =>
    match replayOne ctx sp s r with
    | none => (s, false)
    | some t => replayAll ctx sp l t

/-- The records of the strand have been delivered and each can now be performed. -/
def replayReady (s : State) (sp : SpId) : Bool :=
  let p := s.sp sp
  p.sto.delivered && p.run = .running && p.sto.records.all fun r => recordFix s p.id.ctx r = .ready

/-- R156: the pending records are performed in ascending SEQ; the instruction at which they were delivered executes
again once all have been. -/
def execStoreFaultReplay (sp : SpId) (s : State) : Out :=
  if replayReady s sp then
    let (t, all) := replayAll (s.sp sp).id.ctx sp (bySeq (s.sp sp).sto.records) s
    .next (t.modSp sp fun p => { p with sto := { p.sto with delivered := !all } })
  else .refused (.notEnabled "STORE_FAULT_REPLAY")

end Sys2Proof.Machine
end

