-- ==== Sys2Proof/Machine/Operands.lean ====
section
/-! DEFINITION. Operand forms of the kernel slots and what a slot op does at issue. A slot op is a `Stage`: the faults it
meets, what it waits for, and the effects it has if its bundle issues. Every fault of a bundle is found before any effect
(R108), every operand is read at issue, and every result is put in flight (R96, R97). -/

namespace Sys2Proof.Machine

open Sys2Proof

/-! ## Names (R99, R262) -/

/-- The physical register behind a name, under a rotation base (R99). -/
def physOf (rot : BitVec 4) (n : Nat) : Nat := if 8 ≤ n ∧ n ≤ 23 then 8 + (n - 8 + rot.toNat) % 16 else n

def KEngine.phys (e : KEngine) (n : BitVec 5) : Fin 32 := Fin.ofNat 32 (physOf e.rot n.toNat)

/-- The bank a physical register stands in (R93). -/
def bankOf (p : Nat) : Nat := p / 8

/-- A register that the lent bank 3 takes away (R104, R320). -/
def KEngine.gone (e : KEngine) (p : Nat) : Bool := e.lent && decide (24 ≤ p)

/-- acc4 and acc5 exist while bank 3 is lent (R104). -/
def KEngine.absent (e : KEngine) (a : BitVec 3) : Bool := !e.lent && decide (4 ≤ a.toNat)

/-- The fault `c` if `b` holds. -/
def faultIf (b : Bool) (c : Cause) : List Cause := if b then [c] else []

/-! ## Locations that the checker follows (R98) -/

inductive Loc where
  | v (n : Nat)
  | acc (n : Nat)
  | a (n : Nat)
  | p (n : Nat)
  | m (n : Nat)
  deriving DecidableEq, Repr

/-- The locations a result writes in its own cluster; a write to a31 or p0 is discarded. -/
def Landing.locs : Landing → List Loc
  | .vreg r .. => [.v r.val]
  | .areg r _ => if r = 31 then [] else [.a r.val]
  | .pred p _ => if p = 0 then [] else [.p p.val]
  | .maskReg m .. => [.m m.val]
  | .mma r => [.acc r.acc.toNat]
  | .accZero a => [.acc a.toNat]
  | _ => []

/-- A result writes a location of a cluster; lcset writes the stage predicates of every cluster (R313). -/
def Landing.writes (w : Landing) (own c : ClId) (l : Loc) : Bool :=
  match w, l with
  | .lcset .., .p n => decide (8 ≤ n)
  | _, _ => own == c && w.locs.contains l

/-- A result in flight will land on the location after step `t`. -/
def KEngine.pendsAfter (e : KEngine) (c : ClId) (l : Loc) (t : Nat) : Bool :=
  e.infl.any fun f => decide (t < f.land) && f.what.writes f.cl c l

/-! ## Stages -/

/-- A remote tile write: window, offset in it, data (R366). -/
structure TileSend where
  win  : Fin 16
  off  : Nat
  data : VReg
  deriving DecidableEq, Repr

/-- What an op, or a whole bundle, does at issue. `faults`: the faults its own rules find. `ports`: the physical registers
it reads through bank ports. `reads`: what KCHK looks at. `lends`: it is a lend. `need`: SRF tiles of the own SP that must
be full. `claims`: slots that oclaim takes. `lands`: results with their latencies. `occ`: steps for which it occupies the
multiplier, the drain port, VB and XS. -/
structure Stage where
  faults : List Cause
  ports  : List Nat
  reads  : List (ClId × Loc)
  lends  : Bool
  need   : List Nat
  claims : List (ClId × BitVec 5)
  lands  : List (Nat × ClId × Landing)
  flags  : List (ClId × KF)
  latch  : List (ClId × Fin 10 × VReg)
  advs   : List (ClId × BitVec 3)
  sends  : List TileSend
  occMul : Nat
  occDr  : Nat
  occVb  : Nat
  occXs  : Nat
  weight : Nat
  deriving DecidableEq, Repr

def Stage.none : Stage := ⟨[], [], [], false, [], [], [], [], [], [], [], 0, 0, 0, 0, 0⟩

/-- Two ops of one bundle. -/
def Stage.join (a b : Stage) : Stage :=
  { faults := a.faults ++ b.faults, ports := a.ports ++ b.ports, reads := a.reads ++ b.reads
    lends := a.lends || b.lends, need := a.need ++ b.need, claims := a.claims ++ b.claims
    lands := a.lands ++ b.lands, flags := a.flags ++ b.flags, latch := a.latch ++ b.latch, advs := a.advs ++ b.advs
    sends := a.sends ++ b.sends, occMul := max a.occMul b.occMul, occDr := max a.occDr b.occDr
    occVb := max a.occVb b.occVb, occXs := max a.occXs b.occXs, weight := a.weight + b.weight }

def Stage.all : List Stage → Stage
  | [] => .none
  | a :: l => a.join (Stage.all l)

/-- R365, R372: a check made only in clusters whose guard is true finds nothing when there are none. -/
def Stage.checkedIn (st : Stage) (cs : List ClId) : Stage := if cs.isEmpty then { st with faults := [] } else st

/-- Faults only. -/
def Stage.fault (l : List Cause) : Stage := { Stage.none with faults := l }

/-! ## Guards (R91, R423) -/

/-- The guard's value in a cluster. -/
def KEngine.on (e : KEngine) (g : Guard) (c : ClId) : Bool := (e.cl[c].pGet (g.toNat % 16)) != g.getLsbD 4

/-- The clusters in which the guard is true. -/
def KEngine.active (e : KEngine) (g : Guard) : List ClId := (List.finRange 8).filter (e.on g)

def readAll (cs : List ClId) (l : Loc) : Stage := { Stage.none with reads := cs.map fun c => (c, l) }

/-- A predicate read; p0 is not a location. -/
def predRead (cs : List ClId) (n : Nat) : Stage := if n = 0 then .none else readAll cs (.p n)

/-- A scalar read; a31 is not a location. -/
def scalarRead (cs : List ClId) (n : Nat) : Stage := if n = 31 then .none else readAll cs (.a n)

/-- KCHK treats the guard as a predicate source in every cluster (R423). -/
def guardStage (g : Guard) (w : Nat) : Stage :=
  { predRead (List.finRange 8) (g.toNat % 16) with weight := w }

/-! ## Vector sources (R92, R93) -/

/-- The source positions that have a hold latch. -/
def hVA1 : Fin 10 := 0
def hVA2 : Fin 10 := 1
def hVA3 : Fin 10 := 2
def hVB1 : Fin 10 := 3
def hVB2 : Fin 10 := 4
def hVB3 : Fin 10 := 5
def hUP : Fin 10 := 6
def hPK : Fin 10 := 7
def hSO : Fin 10 := 8
def hXS : Fin 10 := 9

/-- LIT in every lane, or its low half in every 16-bit element. -/
def litReg (lit : W32) (w : Nat) : VReg := ofElems w fun _ => lit.toNat % 2 ^ w

/-- The value that a source reads in a cluster; `w` is the lane format's width. -/
def srcVal (e : KEngine) (c : ClId) (pos : Fin 10) (w : Nat) (x : VSrc) : VReg :=
  if x.sel.toNat < 32 then e.cl[c].v[e.phys (x.sel.setWidth 5)]
  else if x.sel = 32 then e.cl[c].hold[pos]
  else if x.sel = 33 then litReg e.lit w
  else 0

/-- Reading a register by name in the given clusters: port, checker, lent bank. -/
def regStage (e : KEngine) (cs : List ClId) (n : BitVec 5) : Stage :=
  let p := (e.phys n).val
  { Stage.none with
    faults := faultIf (e.gone p) cKernelBankLent, ports := [p], reads := cs.map fun c => (c, .v p) }

/-- Reading a vector source in the given clusters, with its latch. -/
def srcStage (e : KEngine) (cs : List ClId) (pos : Fin 10) (w : Nat) (x : VSrc) : Stage :=
  let r := if x.sel.toNat < 32 then regStage e cs (x.sel.setWidth 5) else .none
  if x.hold then { r with latch := cs.map fun c => (c, pos, srcVal e c pos w x) } else r

/-! ## Destinations -/

/-- A vector register as destination. -/
def destFault (e : KEngine) (n : BitVec 5) : Stage := .fault (faultIf (e.gone (e.phys n).val) cKernelBankLent)

/-- Results with one latency. -/
def landAll (lat : Nat) (cs : List ClId) (f : ClId → Landing) : Stage :=
  { Stage.none with lands := cs.map fun c => (lat, c, f c) }

/-- A whole register written in the given clusters. -/
def landReg (e : KEngine) (lat : Nat) (cs : List ClId) (vd : BitVec 5) (f : ClId → VReg) : Stage :=
  (destFault e vd).join (landAll lat cs fun c => .vreg (e.phys vd) (f c) vOnes)

def flagAll (cs : List ClId) (f : ClId → KF) : Stage := { Stage.none with flags := cs.map fun c => (c, f c) }

/-! ## Element masks (R392) -/

/-- The mask bit that governs element `i` of width `w`. -/
def govBit (w i : Nat) : Nat := if w = 32 then 2 * i else i

/-- Element `i` is acted on. -/
def elemOn (e : KEngine) (c : ClId) (w : Nat) (m : MSel) (i : Nat) : Bool :=
  !m.men || e.cl[c].m[m.msk.toFin].getLsbD (govBit w i)

/-- The bits of a register that a masked write reaches. -/
def writeMask (e : KEngine) (c : ClId) (w : Nat) (m : MSel) : VReg :=
  if m.men then ofElems w fun i => if elemOn e c w m i then 2 ^ w - 1 else 0 else vOnes

/-- The mask read of an op (R392: at issue). -/
def maskStage (cs : List ClId) (m : MSel) : Stage := if m.men then readAll cs (.m m.msk.toNat) else .none

/-- An elementwise op: element `i` of cluster `c` becomes `(f c i).1` and raises `(f c i).2`. -/
def vecStage (e : KEngine) (g : Guard) (lat w : Nat) (vd : BitVec 5) (m : MSel) (f : ClId → Nat → Nat × KF) : Stage :=
  let cs := e.active g
  ((destFault e vd).join (maskStage cs m)).join
    ((landAll lat cs fun c => .vreg (e.phys vd) (ofElems w fun i => (f c i).1) (writeMask e c w m)).join
      (flagAll cs fun c =>
        orFlags ((List.range (nElems w)).map fun i => if elemOn e c w m i then (f c i).2 else 0)))

/-! ## Scalars (R276) -/

/-- src2: LIT or a[A2]. -/
def src2 (e : KEngine) (c : ClId) (a2 : BitVec 5) (lsel : Bool) : W32 := if lsel then e.lit else e.cl[c].aGet c a2.toNat

def src2Read (cs : List ClId) (a2 : BitVec 5) (lsel : Bool) : Stage := if lsel then .none else scalarRead cs a2.toNat

/-! ## Issue (R93, R98, R107, R108) -/

/-- R93: distinct registers read from one bank. -/
def portsBad (l : List Nat) : Bool :=
  (List.range 4).any fun b => decide (3 < (l.eraseDups.filter fun p => bankOf p = b).length)

/-- R98: a source whose write has not landed, or a result that would land before an earlier one does. -/
def stallShort (e : KEngine) (st : Stage) : Bool :=
  e.chk && (st.reads.any (fun r => e.pendsAfter r.1 r.2 e.stepNo)
    || st.lands.any fun l => (List.finRange 8).any fun c =>
        (match l.2.2 with
          | .lcset .. => (List.range 8).map fun i => Loc.p (8 + i)
          | w => if l.2.1 = c then w.locs else []).any fun x => e.pendsAfter c x (e.stepNo + l.1))

/-- A result into v24 to v31 is in flight or starts in this bundle (R319). -/
def bank3Busy (e : KEngine) (st : Stage) : Bool :=
  (e.infl.map InFlight.what ++ st.lands.map fun l => l.2.2).any fun w =>
    match w with
    | .vreg r .. => decide (24 ≤ r.val)
    | _ => false

/-- Every fault of a bundle (R108). -/
def Stage.allFaults (st : Stage) (e : KEngine) : List Cause :=
  faultIf (portsBad st.ports) cKernelPortConflict ++ st.faults ++ faultIf (stallShort e st) cKernelStallShort
    ++ faultIf (st.lends && bank3Busy e st) cKernelLendBusy

/-- FREE VALUE (log 13). Which of several faults of one bundle is reported: the manual gives no order. -/
def pickCause (tick : Nat) (l : List Cause) : Cause := l.getD ((Config.freeWord tick 5000).toNat % l.length) 0

/-- R107: a tile that a read needs has an empty line. -/
def Stage.lineHeld (st : Stage) (p : Sp) : Bool := st.need.any fun f => !p.tileFull f 32

/-- R366: units that the bundle takes from a window's allowance, 16 for each cluster whose swra names it. -/
def Stage.unitsFor (st : Stage) (k : Fin 16) : Nat := 16 * (st.sends.filter fun x => x.win = k).length

/-- R366: some window's allowance does not admit the bundle. -/
def Stage.allowHeld (st : Stage) (p : Sp) : Bool :=
  (List.finRange 16).any fun k =>
    let n := st.unitsFor k
    decide (0 < n) && decide (p.r.win[k].outst.toNat + n > max p.r.win[k].allow.toNat n)

/-- R103: an oclaim waits for a RELEASING slot. -/
def Stage.claimHeld (st : Stage) (e : KEngine) : Bool := st.claims.any fun x => e.cl[x.1].opmSt[x.2.toFin] = .releasing

/-- The latches of a bundle. -/
def putLatches (k : KCluster) : List (Fin 10 × VReg) → KCluster
  | [] => k
  | (i, v) :: l => putLatches { k with hold := k.hold.set i v } l

/-- R72: a cursor moves to its next tile. -/
def advCursor (b : KBind) (c : ClId) (q : BitVec 23) : BitVec 23 :=
  if 0x8000 + q.toNat ≥ b.base.toNat + (b.lm1.toNat + 1) * 0x8000 then BitVec.ofNat 23 (b.base.toNat + c.val * 0x1000)
  else q + 0x8000

def putAdvs (e : KEngine) (c : ClId) (k : KCluster) : List (BitVec 3) → KCluster
  | [] => k
  | q :: l => putAdvs e c { k with q := k.q.set q.toFin (advCursor e.bind[q.toFin] c k.q[q.toFin]) } l

/-- What the bundle does inside the engine. -/
def Stage.apply (st : Stage) (e : KEngine) : KEngine :=
  let occ (n old : Nat) : Nat := if n = 0 then old else e.stepNo + n
  { e.mapCl fun c k =>
      let k1 := putLatches k ((st.latch.filter fun x => x.1 = c).map Prod.snd)
      let k2 := putAdvs e c k1 ((st.advs.filter fun x => x.1 = c).map Prod.snd)
      k2.flag (orFlags ((st.flags.filter fun x => x.1 = c).map Prod.snd)) with
    run := e.run.map fun k => { k with since := .none }
    infl := e.infl ++ st.lands.map fun l => ⟨l.2.1, e.stepNo + l.1, l.2.2⟩
    mulFree := occ st.occMul e.mulFree, drFree := occ st.occDr e.drFree, vbFree := occ st.occVb e.vbFree
    xsFree := occ st.occXs e.xsFree }

/-- Bytes of a register from byte `off`. -/
def vBytes (d : VReg) (off n : Nat) : List Byte := (List.range n).map fun i => elemAt 8 d (off + i)

/-- The krun tag of the running kernel (R144). -/
def kernelTag (p : Sp) : TagId := (p.ke.run.bind fun k => k.op.tag).getD 0

/-- R366: the packets of one remote tile, 256 bytes each, of the numbers listed. -/
def sendTile (sp : SpId) (slack : BitVec 12) (x : TileSend) : List Nat → State → Option State
  | [], s => some s
  | i :: l, s =>
    (winPost s sp (some (kernelTag (s.sp sp))) slack x.win (x.off + 256 * i) (vBytes x.data (256 * i) 256)).bind
      (sendTile sp slack x l)

def sendTiles (s : State) (sp : SpId) (slack : BitVec 12) : List TileSend → Option State
  | [] => some s
  | x :: l =>
    match sendTile sp slack x (List.range 16) s with
    | none => none
    | some t => sendTiles t sp slack l

/-- The slack of the running kernel's packets (R176). -/
def kernelSlack (p : Sp) : BitVec 12 :=
  match p.ke.run with
  | some k => k.op.slack
  | none => p.r.slk[0]

/-- The remote writes leave, then the rest takes effect. None when no transaction can be opened now (R166). -/
def Stage.commit (st : Stage) (s : State) (sp : SpId) : Option State :=
  (sendTiles s sp (kernelSlack (s.sp sp)) st.sends).map fun t => t.modKe sp st.apply

/-! ## A kernel's fault (R108, R198) -/

/-- The seat of an SP's strand keeps the KPC of the fault report. -/
def reportKpc (s : State) (sp : SpId) : State :=
  match (s.sp sp).gang, (s.sp sp).ke.run with
  | some g, some k => s.modSeat g (s.sp sp).id.seat.toNat fun q => { q with kpc := some k.kpc }
  | _, _ => s

/-- The bundle is suppressed whole, the multiplier makes no further reissue, the KPC is reported, and the fault is fatal to
the task. -/
def kernelFault (s : State) (sp : SpId) (c : Cause) : State :=
  failStrand ((reportKpc s sp).modKe sp fun e =>
    { e with
      rep := .none
      run := e.run.map fun k => { k with phase := .faulted c k.kpc, since := .none } }) sp c

/-- What becomes of a bundle at issue. -/
inductive Verdict where
  | fault (c : Cause)
  | freeze (line : Bool)
  | wait
  | go
  deriving DecidableEq, Repr

/-- R108: faults first, then the freezes, then the oclaim wait. -/
def Stage.verdict (st : Stage) (s : State) (sp : SpId) : Verdict :=
  let p := s.sp sp
  let fs := st.allFaults p.ke
  if !fs.isEmpty then .fault (pickCause s.tick fs)
  else if st.lineHeld p then .freeze true
  else if st.allowHeld p then .freeze false
  else if st.claimHeld p.ke then .wait
  else .go

/-- A freeze begins or goes on; FETIME counts from the moment an empty line holds the bundle (R70, R107). -/
def markFreeze (s : State) (sp : SpId) (line : Bool) : State :=
  s.modKe sp fun e => { e with run := e.run.map fun k =>
    { k with since :=
        if line then (if k.since.isSome then k.since
          else some (s.time, feLimit s (dieOf sp))) else .none } }

/-- One slot op issues alone in the current step of the engine of the SP under execution: it faults, it is held, or it
takes effect. -/
def slotStep (f : State → SpId → Stage) (s : State) : State :=
  let st := f s s.cur
  match st.verdict s s.cur with
  | .fault c => kernelFault s s.cur c
  | .freeze l => markFreeze s s.cur l
  | .wait => s
  | .go => (st.commit s s.cur).getD s

/-- A slot op that looks at the engine only. -/
def slotStepE (f : KEngine → Stage) (s : State) : State := slotStep (fun s sp => f (s.sp sp).ke) s

end Sys2Proof.Machine
end

