-- ==== Sys2Proof/Machine/KScalar.lean ====
section
/-! DEFINITION. The SA slot: cluster scalars, predicates, loop registers and tile status reads (R276 to R278, R281, R282,
R286, R287, R313, R314, R344). -/

namespace Sys2Proof.Machine

open Sys2Proof

/-- A scalar result in every cluster whose guard is true. -/
def scalarStage (e : KEngine) (g : Guard) (lat : Nat) (ad : BitVec 5) (f : ClId → W32) : Stage :=
  (guardStage g 1).join (landAll lat (e.active g) fun c => .areg ad.toFin (f c))

/-- The two scalar sources of an op. -/
def scalarReads (e : KEngine) (g : Guard) (a1 a2 : BitVec 5) (l : Bool) : Stage :=
  (scalarRead (e.active g) a1.toNat).join (src2Read (e.active g) a2 l)

/-- a[A1]. -/
def src1 (e : KEngine) (c : ClId) (a1 : BitVec 5) : W32 := e.cl[c].aGet c a1.toNat

/-- aadd, asub and amul (R277). -/
def arithStage (op : W32 → W32 → W32) (lat : Nat) (g : Guard) (ad a1 a2 : BitVec 5) (l : Bool) (e : KEngine) : Stage :=
  (scalarReads e g a1 a2 l).join (scalarStage e g lat ad fun c => op (src1 e c a1) (src2 e c a2 l))

def stAadd (g : Guard) (ad a1 a2 : BitVec 5) (l : Bool) (e : KEngine) : Stage := arithStage (· + ·) 1 g ad a1 a2 l e
def stAsub (g : Guard) (ad a1 a2 : BitVec 5) (l : Bool) (e : KEngine) : Stage := arithStage (· - ·) 1 g ad a1 a2 l e
def stAmul (g : Guard) (ad a1 a2 : BitVec 5) (l : Bool) (e : KEngine) : Stage := arithStage (· * ·) 2 g ad a1 a2 l e
def stAaddi (g : Guard) (ad a1 : BitVec 5) (imm : BitVec 14) (e : KEngine) : Stage :=
  (scalarRead (e.active g) a1.toNat).join (scalarStage e g 1 ad fun c => src1 e c a1 + imm.signExtend 32)
def stAli (g : Guard) (ad : BitVec 5) (e : KEngine) : Stage := scalarStage e g 1 ad fun _ => e.lit

/-- A predicate result in every cluster whose guard is true. -/
def predStage (e : KEngine) (g : Guard) (lat : Nat) (pd : BitVec 4) (f : ClId → Bool) : Stage :=
  (guardStage g 1).join (landAll lat (e.active g) fun c => .pred pd.toFin (f c))

/-- The conditions of R278, with the codes of R259. -/
def condHolds32 (cond : BitVec 3) (a b : W32) : Bool :=
  match cond.toNat with
  | 0 => a == b
  | 1 => a != b
  | 2 => BitVec.slt a b
  | 3 => !BitVec.slt a b
  | 4 => BitVec.ult a b
  | _ => !BitVec.ult a b

/-- acmp (R278). -/
def stAcmp (g : Guard) (cond : BitVec 3) (pd : BitVec 4) (a1 a2 : BitVec 5) (l : Bool) (e : KEngine) : Stage :=
  (scalarReads e g a1 a2 l).join (predStage e g 1 pd fun c => condHolds32 cond (src1 e c a1) (src2 e c a2 l))

/-- asel (R286). -/
def stAsel (g : Guard) (ad : BitVec 5) (ps : BitVec 4) (a1 a2 : BitVec 5) (l : Bool) (e : KEngine) : Stage :=
  ((scalarReads e g a1 a2 l).join (predRead (e.active g) ps.toNat)).join
    (scalarStage e g 1 ad fun c => if e.cl[c].pGet ps.toNat then src1 e c a1 else src2 e c a2 l)

/-- R281: the word that ald reads. -/
def aldWord (v : VReg) (x : W32) (imm : BitVec 14) : W32 := elemAt 32 v ((x + imm.signExtend 32).toNat % 1024)

/-- ald (R281). -/
def stAld (g : Guard) (ad vn a2 : BitVec 5) (l : Bool) (imm : BitVec 14) (e : KEngine) : Stage :=
  ((regStage e (e.active g) vn).join (src2Read (e.active g) a2 l)).join
    (scalarStage e g 3 ad fun c => aldWord e.cl[c].v[e.phys vn] (src2 e c a2 l) imm)

/-- atsr (R287). -/
def stAtsr (g : Guard) (pd : BitVec 4) (tsr : BitVec 3) (b : BitVec 2) (e : KEngine) : Stage :=
  predStage e g 3 pd fun c => (e.cl[c].tsr.toList.getD tsr.toNat 0).getLsbD b.toNat

/-- lcset (R313): acts when the guard is true somewhere, with src2 of the lowest such cluster. -/
def stLcset (g : Guard) (a2 : BitVec 5) (l : Bool) (st : BitVec 8) (e : KEngine) : Stage :=
  match e.active g with
  | [] => guardStage g 1
  | c :: _ =>
    ((guardStage g 1).join (src2Read [c] a2 l)).join (landAll 1 [c] fun _ => .lcset (src2 e c a2 l) st)

/-- pmov (R344). -/
def stPmov (g : Guard) (pd ps : BitVec 4) (neg : Bool) (e : KEngine) : Stage :=
  (predRead (e.active g) ps.toNat).join (predStage e g 1 pd fun c => e.cl[c].pGet ps.toNat != neg)

/-! ## Meanings -/

/-- R277. -/
def execAadd (g : Guard) (ad a1 a2 : BitVec 5) (l : Bool) (s : State) : Out := .next (slotStepE (stAadd g ad a1 a2 l) s)
/-- R277. -/
def execAaddi (g : Guard) (ad a1 : BitVec 5) (imm : BitVec 14) (s : State) : Out :=
  .next (slotStepE (stAaddi g ad a1 imm) s)
/-- R277. -/
def execAsub (g : Guard) (ad a1 a2 : BitVec 5) (l : Bool) (s : State) : Out := .next (slotStepE (stAsub g ad a1 a2 l) s)
/-- R277. -/
def execAmul (g : Guard) (ad a1 a2 : BitVec 5) (l : Bool) (s : State) : Out := .next (slotStepE (stAmul g ad a1 a2 l) s)
/-- R282. -/
def execAli (g : Guard) (ad : BitVec 5) (s : State) : Out := .next (slotStepE (stAli g ad) s)
/-- R278. -/
def execAcmp (g : Guard) (cond : BitVec 3) (pd : BitVec 4) (a1 a2 : BitVec 5) (l : Bool) (s : State) : Out :=
  .next (slotStepE (stAcmp g cond pd a1 a2 l) s)
/-- R286. -/
def execAsel (g : Guard) (ad : BitVec 5) (ps : BitVec 4) (a1 a2 : BitVec 5) (l : Bool) (s : State) : Out :=
  .next (slotStepE (stAsel g ad ps a1 a2 l) s)
/-- R281. -/
def execAld (g : Guard) (ad vn a2 : BitVec 5) (l : Bool) (imm : BitVec 14) (s : State) : Out :=
  .next (slotStepE (stAld g ad vn a2 l imm) s)
/-- R287. -/
def execAtsr (g : Guard) (pd : BitVec 4) (tsr : BitVec 3) (b : BitVec 2) (s : State) : Out :=
  .next (slotStepE (stAtsr g pd tsr b) s)
/-- R313, R314. -/
def execLcset (g : Guard) (a2 : BitVec 5) (l : Bool) (st : BitVec 8) (s : State) : Out :=
  .next (slotStepE (stLcset g a2 l st) s)
/-- R344. -/
def execPmov (g : Guard) (pd ps : BitVec 4) (neg : Bool) (s : State) : Out := .next (slotStepE (stPmov g pd ps neg) s)

end Sys2Proof.Machine
end

