-- ==== Sys2Proof/Machine/KVa.lean ====
section
/-! DEFINITION. The VA slot: vector arithmetic, special functions, integer and bit operations, conversion (R392 to R396,
R399 to R402). -/

namespace Sys2Proof.Machine

open Sys2Proof

/-- An op of the VA slot with one, two or three sources. -/
def vaStage1 (g : Guard) (lat w wd : Nat) (vd : BitVec 5) (a : VSrc) (m : MSel) (e : KEngine)
    (f : ClId → VReg → Nat → Nat × KF) : Stage :=
  ((guardStage g 6).join (srcStage e (e.active g) hVA1 w a)).join
    (vecStage e g lat wd vd m fun c i => f c (srcVal e c hVA1 w a) i)

def vaStage2 (g : Guard) (lat w : Nat) (vd : BitVec 5) (a b : VSrc) (m : MSel) (e : KEngine)
    (f : Nat → Nat → Nat × KF) : Stage :=
  ((guardStage g 6).join ((srcStage e (e.active g) hVA1 w a).join (srcStage e (e.active g) hVA2 w b))).join
    (vecStage e g lat w vd m fun c i => f (vElem w (srcVal e c hVA1 w a) i) (vElem w (srcVal e c hVA2 w b) i))

def vaStage3 (g : Guard) (lat w : Nat) (vd : BitVec 5) (a b d : VSrc) (m : MSel) (e : KEngine)
    (f : Nat → Nat → Nat → Nat × KF) : Stage :=
  ((guardStage g 6).join ((srcStage e (e.active g) hVA1 w a).join
    ((srcStage e (e.active g) hVA2 w b).join (srcStage e (e.active g) hVA3 w d)))).join
    (vecStage e g lat w vd m fun c i =>
      f (vElem w (srcVal e c hVA1 w a) i) (vElem w (srcVal e c hVA2 w b) i) (vElem w (srcVal e c hVA3 w d) i))

/-- The floating format of a VA code; the integer codes have none. -/
def fpOf (c : BitVec 3) : FFmt := if c = 0 then fp32 else if c = 1 then bf16 else fp16

/-- Width and sign of an integer code. -/
def intOf (c : BitVec 3) : Nat × Bool := (fmtW c, c == 3 || c == 4)

/-- vmin (`least`) and vmax of one element (R395, R130). -/
def minMaxElem (least : Bool) (c : BitVec 3) (a b : Nat) : Nat × KF :=
  match laneFmt c with
  | .f x => x.minMax least a b
  | .int w s =>
    let lt := decide (intVal w s a < intVal w s b)
    (if lt == least then a else b, 0)

/-- viadd, visub, vimul and vshl of one element (R402): the exact value, wrapped or saturated. -/
def intElem (c : BitVec 3) (sat : Bool) (op : Int → Int → Int) (a b : Nat) : Nat × KF :=
  let f := intOf c
  intFit f.1 f.2 sat fSAT (op (intVal f.1 f.2 a) (intVal f.1 f.2 b))

/-- The shift count of vshl and vshr: b mod w (R402). -/
def shiftCount (c : BitVec 3) (b : Nat) : Nat := b % fmtW c

/-- vshr of one element. -/
def shrElem (c : BitVec 3) (a b : Nat) : Nat × KF :=
  let f := intOf c
  (intBits f.1 (intVal f.1 f.2 a / 2 ^ shiftCount c b), 0)

/-- FREE VALUE (log 14). Which neighbour vexp2 and vlog2 return for an element (R131). -/
def upBit (tick : Nat) (c : ClId) (i : Nat) : Bool := Config.freeBit tick (c.val * 4096 + i)

/-- vcvt (R399, R400): element `i` of the destination, from lane `i`, element `2i` or element `i` of the source. -/
def cvtElem (src dst : BitVec 3) (rnd : BitVec 2) (v : VReg) (i : Nat) : Nat × KF :=
  let ws := fmtW src
  let wd := fmtW dst
  if ws = wd then cvt (laneFmt src) (laneFmt dst) (rndOf rnd) (vElem ws v i)
  else if ws = 32 then
    (if i % 2 = 0 then cvt (laneFmt src) (laneFmt dst) (rndOf rnd) (vElem 32 v (i / 2)) else (0, 0))
  else cvt (laneFmt src) (laneFmt dst) (rndOf rnd) (vElem 16 v (2 * i))

/-! ## Stages -/

def stVadd (g : Guard) (fmt : BitVec 3) (rnd : BitVec 2) (vd : BitVec 5) (s1 s2 : VSrc) (m : MSel) (e : KEngine) : Stage :=
  vaStage2 g 2 (fmtW fmt) vd s1 s2 m e fun a b => (fpOf fmt).add (rndOf rnd) a b

def stVsub (g : Guard) (fmt : BitVec 3) (rnd : BitVec 2) (vd : BitVec 5) (s1 s2 : VSrc) (m : MSel) (e : KEngine) : Stage :=
  vaStage2 g 2 (fmtW fmt) vd s1 s2 m e fun a b => (fpOf fmt).sub (rndOf rnd) a b

def stVmul (g : Guard) (fmt : BitVec 3) (rnd : BitVec 2) (vd : BitVec 5) (s1 s2 : VSrc) (m : MSel) (e : KEngine) : Stage :=
  vaStage2 g 2 (fmtW fmt) vd s1 s2 m e fun a b => (fpOf fmt).mul (rndOf rnd) a b

def stVfma (g : Guard) (fmt : BitVec 3) (rnd : BitVec 2) (vd : BitVec 5) (s1 s2 s3 : VSrc) (m : MSel) (e : KEngine) : Stage :=
  vaStage3 g 3 (fmtW fmt) vd s1 s2 s3 m e fun a b d => (fpOf fmt).fma (rndOf rnd) a b d

def stVmin (g : Guard) (fmt : BitVec 3) (_rnd : BitVec 2) (vd : BitVec 5) (s1 s2 : VSrc) (m : MSel) (e : KEngine) : Stage :=
  vaStage2 g 2 (fmtW fmt) vd s1 s2 m e fun a b => minMaxElem true fmt a b

def stVmax (g : Guard) (fmt : BitVec 3) (_rnd : BitVec 2) (vd : BitVec 5) (s1 s2 : VSrc) (m : MSel) (e : KEngine) : Stage :=
  vaStage2 g 2 (fmtW fmt) vd s1 s2 m e fun a b => minMaxElem false fmt a b

def stVexp2 (tick : Nat) (g : Guard) (fmt : BitVec 3) (_rnd : BitVec 2) (vd : BitVec 5) (s1 : VSrc) (m : MSel) (e : KEngine) : Stage :=
  vaStage1 g 5 (fmtW fmt) (fmtW fmt) vd s1 m e fun c v i => (fpOf fmt).exp2 (upBit tick c i) (vElem (fmtW fmt) v i)

def stVlog2 (tick : Nat) (g : Guard) (fmt : BitVec 3) (_rnd : BitVec 2) (vd : BitVec 5) (s1 : VSrc) (m : MSel) (e : KEngine) : Stage :=
  vaStage1 g 5 (fmtW fmt) (fmtW fmt) vd s1 m e fun c v i => (fpOf fmt).log2 (upBit tick c i) (vElem (fmtW fmt) v i)

def stVrcp (g : Guard) (fmt : BitVec 3) (rnd : BitVec 2) (vd : BitVec 5) (s1 : VSrc) (m : MSel) (e : KEngine) : Stage :=
  vaStage1 g 5 (fmtW fmt) (fmtW fmt) vd s1 m e fun _ v i => (fpOf fmt).rcp (rndOf rnd) (vElem (fmtW fmt) v i)

def stVrsq (g : Guard) (fmt : BitVec 3) (rnd : BitVec 2) (vd : BitVec 5) (s1 : VSrc) (m : MSel) (e : KEngine) : Stage :=
  vaStage1 g 5 (fmtW fmt) (fmtW fmt) vd s1 m e fun _ v i => (fpOf fmt).rsq (rndOf rnd) (vElem (fmtW fmt) v i)

def stVcvt (g : Guard) (fmt dst : BitVec 3) (rnd : BitVec 2) (vd : BitVec 5) (s1 : VSrc) (m : MSel) (e : KEngine) : Stage :=
  vaStage1 g 2 (fmtW fmt) (fmtW dst) vd s1 m e fun _ v i => cvtElem fmt dst rnd v i

def stViadd (g : Guard) (fmt : BitVec 3) (sat : Bool) (vd : BitVec 5) (s1 s2 : VSrc) (m : MSel) (e : KEngine) : Stage :=
  vaStage2 g 2 (fmtW fmt) vd s1 s2 m e fun a b => intElem fmt sat (fun x y => x + y) a b

def stVisub (g : Guard) (fmt : BitVec 3) (sat : Bool) (vd : BitVec 5) (s1 s2 : VSrc) (m : MSel) (e : KEngine) : Stage :=
  vaStage2 g 2 (fmtW fmt) vd s1 s2 m e fun a b => intElem fmt sat (fun x y => x - y) a b

def stVimul (g : Guard) (fmt : BitVec 3) (sat : Bool) (vd : BitVec 5) (s1 s2 : VSrc) (m : MSel) (e : KEngine) : Stage :=
  vaStage2 g 3 (fmtW fmt) vd s1 s2 m e fun a b => intElem fmt sat (fun x y => x * y) a b

def stVshl (g : Guard) (fmt : BitVec 3) (sat : Bool) (vd : BitVec 5) (s1 s2 : VSrc) (m : MSel) (e : KEngine) : Stage :=
  vaStage2 g 2 (fmtW fmt) vd s1 s2 m e fun a b => intElem fmt sat (fun x _ => x * 2 ^ shiftCount fmt b) a b

def stVshr (g : Guard) (fmt : BitVec 3) (vd : BitVec 5) (s1 s2 : VSrc) (m : MSel) (e : KEngine) : Stage :=
  vaStage2 g 2 (fmtW fmt) vd s1 s2 m e fun a b => shrElem fmt a b

def stVand (g : Guard) (fmt : BitVec 3) (vd : BitVec 5) (s1 s2 : VSrc) (m : MSel) (e : KEngine) : Stage :=
  vaStage2 g 2 (fmtW fmt) vd s1 s2 m e fun a b => (a &&& b, 0)

def stVor (g : Guard) (fmt : BitVec 3) (vd : BitVec 5) (s1 s2 : VSrc) (m : MSel) (e : KEngine) : Stage :=
  vaStage2 g 2 (fmtW fmt) vd s1 s2 m e fun a b => (a ||| b, 0)

def stVxor (g : Guard) (fmt : BitVec 3) (vd : BitVec 5) (s1 s2 : VSrc) (m : MSel) (e : KEngine) : Stage :=
  vaStage2 g 2 (fmtW fmt) vd s1 s2 m e fun a b => (a ^^^ b, 0)

/-! ## Meanings -/

/-- R394, R395. -/
def execVadd (g : Guard) (fmt : BitVec 3) (rnd : BitVec 2) (vd : BitVec 5) (s1 s2 : VSrc) (m : MSel) (s : State) : Out :=
  .next (slotStepE (stVadd g fmt rnd vd s1 s2 m) s)

/-- R394, R395. -/
def execVsub (g : Guard) (fmt : BitVec 3) (rnd : BitVec 2) (vd : BitVec 5) (s1 s2 : VSrc) (m : MSel) (s : State) : Out :=
  .next (slotStepE (stVsub g fmt rnd vd s1 s2 m) s)

/-- R394, R395. -/
def execVmul (g : Guard) (fmt : BitVec 3) (rnd : BitVec 2) (vd : BitVec 5) (s1 s2 : VSrc) (m : MSel) (s : State) : Out :=
  .next (slotStepE (stVmul g fmt rnd vd s1 s2 m) s)

/-- R394, R395. -/
def execVfma (g : Guard) (fmt : BitVec 3) (rnd : BitVec 2) (vd : BitVec 5) (s1 s2 s3 : VSrc) (m : MSel) (s : State) : Out :=
  .next (slotStepE (stVfma g fmt rnd vd s1 s2 s3 m) s)

/-- R394, R395. -/
def execVmin (g : Guard) (fmt : BitVec 3) (_rnd : BitVec 2) (vd : BitVec 5) (s1 s2 : VSrc) (m : MSel) (s : State) : Out :=
  .next (slotStepE (stVmin g fmt _rnd vd s1 s2 m) s)

/-- R394, R395. -/
def execVmax (g : Guard) (fmt : BitVec 3) (_rnd : BitVec 2) (vd : BitVec 5) (s1 s2 : VSrc) (m : MSel) (s : State) : Out :=
  .next (slotStepE (stVmax g fmt _rnd vd s1 s2 m) s)

/-- R131, R401. -/
def execVexp2 (g : Guard) (fmt : BitVec 3) (_rnd : BitVec 2) (vd : BitVec 5) (s1 : VSrc) (m : MSel) (s : State) : Out :=
  .next (slotStepE (stVexp2 s.tick g fmt _rnd vd s1 m) s)

/-- R131, R401. -/
def execVlog2 (g : Guard) (fmt : BitVec 3) (_rnd : BitVec 2) (vd : BitVec 5) (s1 : VSrc) (m : MSel) (s : State) : Out :=
  .next (slotStepE (stVlog2 s.tick g fmt _rnd vd s1 m) s)

/-- R131, R401. -/
def execVrcp (g : Guard) (fmt : BitVec 3) (rnd : BitVec 2) (vd : BitVec 5) (s1 : VSrc) (m : MSel) (s : State) : Out :=
  .next (slotStepE (stVrcp g fmt rnd vd s1 m) s)

/-- R131, R401. -/
def execVrsq (g : Guard) (fmt : BitVec 3) (rnd : BitVec 2) (vd : BitVec 5) (s1 : VSrc) (m : MSel) (s : State) : Out :=
  .next (slotStepE (stVrsq g fmt rnd vd s1 m) s)

/-- R399, R400. -/
def execVcvt (g : Guard) (fmt dst : BitVec 3) (rnd : BitVec 2) (vd : BitVec 5) (s1 : VSrc) (m : MSel) (s : State) : Out :=
  .next (slotStepE (stVcvt g fmt dst rnd vd s1 m) s)

/-- R402. -/
def execViadd (g : Guard) (fmt : BitVec 3) (sat : Bool) (vd : BitVec 5) (s1 s2 : VSrc) (m : MSel) (s : State) : Out :=
  .next (slotStepE (stViadd g fmt sat vd s1 s2 m) s)

/-- R402. -/
def execVisub (g : Guard) (fmt : BitVec 3) (sat : Bool) (vd : BitVec 5) (s1 s2 : VSrc) (m : MSel) (s : State) : Out :=
  .next (slotStepE (stVisub g fmt sat vd s1 s2 m) s)

/-- R402. -/
def execVimul (g : Guard) (fmt : BitVec 3) (sat : Bool) (vd : BitVec 5) (s1 s2 : VSrc) (m : MSel) (s : State) : Out :=
  .next (slotStepE (stVimul g fmt sat vd s1 s2 m) s)

/-- R402. -/
def execVshl (g : Guard) (fmt : BitVec 3) (sat : Bool) (vd : BitVec 5) (s1 s2 : VSrc) (m : MSel) (s : State) : Out :=
  .next (slotStepE (stVshl g fmt sat vd s1 s2 m) s)

/-- R402. -/
def execVshr (g : Guard) (fmt : BitVec 3) (vd : BitVec 5) (s1 s2 : VSrc) (m : MSel) (s : State) : Out :=
  .next (slotStepE (stVshr g fmt vd s1 s2 m) s)

/-- R396. -/
def execVand (g : Guard) (fmt : BitVec 3) (vd : BitVec 5) (s1 s2 : VSrc) (m : MSel) (s : State) : Out :=
  .next (slotStepE (stVand g fmt vd s1 s2 m) s)

/-- R396. -/
def execVor (g : Guard) (fmt : BitVec 3) (vd : BitVec 5) (s1 s2 : VSrc) (m : MSel) (s : State) : Out :=
  .next (slotStepE (stVor g fmt vd s1 s2 m) s)

/-- R396. -/
def execVxor (g : Guard) (fmt : BitVec 3) (vd : BitVec 5) (s1 s2 : VSrc) (m : MSel) (s : State) : Out :=
  .next (slotStepE (stVxor g fmt vd s1 s2 m) s)

end Sys2Proof.Machine
end

