-- ==== Sys2Proof/Machine/KVb.lean ====
section
/-! DEFINITION. The VB slot: moves, selection, comparison, rotation, broadcast, reduction, scan, top-k, transpose and masks
(R133, R397, R398, R403 to R410). -/

namespace Sys2Proof.Machine

open Sys2Proof

/-- What every VB op does to its slot: it faults while the slot is occupied and occupies it for `occ` steps (R96). -/
def vbSlot (g : Guard) (occ : Nat) (e : KEngine) : Stage :=
  { guardStage g 3 with faults := faultIf (decide (e.stepNo < e.vbFree)) cKernelSlotBusy, occVb := occ }

/-- An op with one vector source, element by element. -/
def vbStage1 (g : Guard) (lat w : Nat) (vd : BitVec 5) (a : VSrc) (m : MSel) (e : KEngine)
    (f : ClId → VReg → Nat → Nat × KF) : Stage :=
  ((vbSlot g 1 e).join (srcStage e (e.active g) hVB1 w a)).join
    (vecStage e g lat w vd m fun c i => f c (srcVal e c hVB1 w a) i)

/-- Element `i` of a register moved, without a flag. -/
def moved (w : Nat) (v : VReg) (i : Nat) : Nat × KF := (vElem w v i, 0)

/-- vmov (R405). -/
def stVmov (g : Guard) (fmt : BitVec 3) (vd : BitVec 5) (s1 : VSrc) (m : MSel) (e : KEngine) : Stage :=
  vbStage1 g 2 (fmtW fmt) vd s1 m e fun _ v i => moved (fmtW fmt) v i

/-- vsel (R405): the mask selects, every element is written. -/
def stVsel (g : Guard) (fmt : BitVec 3) (vd : BitVec 5) (s1 s3 : VSrc) (msk : BitVec 3) (e : KEngine) : Stage :=
  let w := fmtW fmt
  let cs := e.active g
  ((vbSlot g 1 e).join ((srcStage e cs hVB1 w s1).join (srcStage e cs hVB3 w s3))).join
    ((maskStage cs ⟨true, msk⟩).join
      (vecStage e g 2 w vd ⟨false, 0⟩ fun c i =>
        (if elemOn e c w ⟨true, msk⟩ i then vElem w (srcVal e c hVB1 w s1) i else vElem w (srcVal e c hVB3 w s3) i, 0)))

/-! ## Comparison (R398) -/

/-- The conditions from an equality, an order and whether the two can be compared. -/
def cmpCond (cond : BitVec 4) (eq lt ord : Bool) : Bool :=
  match cond.toNat with
  | 0 => ord && eq
  | 1 => !(ord && eq)
  | 2 => ord && lt
  | 3 => ord && (lt || eq)
  | 4 => ord && !(lt || eq)
  | _ => ord && !lt

def vcmpElem (cond : BitVec 4) (fmt : BitVec 3) (a b : Nat) : Bool × KF :=
  match laneFmt fmt with
  | .f x =>
    let p := x.decode a
    let q := x.decode b
    (cmpCond cond (eqNum p q) (ltNum p q) (!p.isNan && !q.isNan), flagIf (p.isSNan || q.isSNan) fNV)
  | .int w s => (cmpCond cond (intVal w s a == intVal w s b) (decide (intVal w s a < intVal w s b)) true, 0)

/-- A mask whose governing bits of element `i` are `f i` (R392). -/
def maskOf (w : Nat) (f : Nat → Bool) : MaskR :=
  joinE 1 (fun j => BitVec.ofBool (f (if w = 32 then j / 2 else j))) 2048

/-- vcmp (R398). -/
def stVcmp (g : Guard) (cond : BitVec 4) (fmt : BitVec 3) (md : BitVec 3) (s1 s2 : VSrc) (m : MSel) (e : KEngine) :
    Stage :=
  let w := fmtW fmt
  let cs := e.active g
  let r (c : ClId) (i : Nat) : Bool × KF :=
    vcmpElem cond fmt (vElem w (srcVal e c hVB1 w s1) i) (vElem w (srcVal e c hVB2 w s2) i)
  ((vbSlot g 1 e).join ((srcStage e cs hVB1 w s1).join (srcStage e cs hVB2 w s2))).join
    ((maskStage cs m).join
      ((landAll 2 cs fun c =>
          .maskReg md.toFin (maskOf w fun i => (r c i).1) (maskOf w fun i => elemOn e c w m i)).join
        (flagAll cs fun c =>
          orFlags ((List.range (nElems w)).map fun i => if elemOn e c w m i then (r c i).2 else 0))))

/-! ## Rotation and broadcast (R397) -/

/-- A source element for each destination element: its index from row and place in the row. -/
def vbMove (g : Guard) (lat : Nat) (fmt : BitVec 3) (vd : BitVec 5) (s1 : VSrc) (m : MSel) (e : KEngine)
    (f : Nat → Nat → Nat) : Stage :=
  let w := fmtW fmt
  vbStage1 g lat w vd s1 m e fun _ v i => moved w v (f (i / rowLen w) (i % rowLen w))

def stVrotr (g : Guard) (fmt : BitVec 3) (vd : BitVec 5) (s1 : VSrc) (n : BitVec 8) (m : MSel) (e : KEngine) : Stage :=
  let l := rowLen (fmtW fmt)
  vbMove g 2 fmt vd s1 m e fun r x => r * l + (x + n.toNat) % l
def stVrotc (g : Guard) (fmt : BitVec 3) (vd : BitVec 5) (s1 : VSrc) (n : BitVec 8) (m : MSel) (e : KEngine) : Stage :=
  let l := rowLen (fmtW fmt)
  vbMove g 4 fmt vd s1 m e fun r x => (r + n.toNat) % 16 * l + x
def stVbcr (g : Guard) (fmt : BitVec 3) (vd : BitVec 5) (s1 : VSrc) (n : BitVec 8) (m : MSel) (e : KEngine) : Stage :=
  let l := rowLen (fmtW fmt)
  vbMove g 2 fmt vd s1 m e fun r _ => r * l + n.toNat
def stVbcc (g : Guard) (fmt : BitVec 3) (vd : BitVec 5) (s1 : VSrc) (n : BitVec 8) (m : MSel) (e : KEngine) : Stage :=
  let l := rowLen (fmtW fmt)
  vbMove g 4 fmt vd s1 m e fun _ x => n.toNat * l + x

/-! ## Reductions (R406, R407) -/

/-- A reduction over a set of elements for each destination element; elements masked off are left out. -/
def vbReduce (g : Guard) (lat : Nat) (op : BitVec 4) (fmt : BitVec 3) (vd : BitVec 5) (s1 : VSrc) (m : MSel)
    (e : KEngine) (set : Nat → Nat → List Nat) : Stage :=
  let w := fmtW fmt
  vbStage1 g lat w vd s1 m e fun c v i =>
    reduce op (laneFmt fmt)
      (((set (i / rowLen w) (i % rowLen w)).filter fun j => elemOn e c w m j).map fun j => vElem w v j)

def stVredr (g : Guard) (op : BitVec 4) (fmt : BitVec 3) (vd : BitVec 5) (s1 : VSrc) (m : MSel) (e : KEngine) : Stage :=
  let l := rowLen (fmtW fmt)
  vbReduce g 2 op fmt vd s1 m e fun r _ => (List.range l).map fun x => r * l + x
def stVredc (g : Guard) (op : BitVec 4) (fmt : BitVec 3) (vd : BitVec 5) (s1 : VSrc) (m : MSel) (e : KEngine) : Stage :=
  let l := rowLen (fmtW fmt)
  vbReduce g 4 op fmt vd s1 m e fun _ x => (List.range 16).map fun r => r * l + x
def stVscanr (g : Guard) (op : BitVec 4) (fmt : BitVec 3) (vd : BitVec 5) (s1 : VSrc) (m : MSel) (e : KEngine) :
    Stage :=
  let l := rowLen (fmtW fmt)
  vbReduce g 2 op fmt vd s1 m e fun r x => (List.range (x + 1)).map fun y => r * l + y

/-! ## viota (R403) -/

def iotaElem (mode : BitVec 4) (w i : Nat) : Nat :=
  if mode = 0 then i else if mode = 1 then i % rowLen w else i / rowLen w

def stViota (g : Guard) (mode : BitVec 4) (fmt : BitVec 3) (vd : BitVec 5) (m : MSel) (e : KEngine) : Stage :=
  (vbSlot g 1 e).join (vecStage e g 2 (fmtW fmt) vd m fun _ i => (iotaElem mode (fmtW fmt) i, 0))

/-! ## vtopk (R133, R408, R409) -/

/-- A candidate: its value's code and its index. -/
abbrev Cand := Nat × Nat

/-- R133: a precedes b. -/
def precedes (fmt : BitVec 3) (a b : Cand) : Bool :=
  match laneFmt fmt with
  | .f x =>
    let p := x.decode a.1
    let q := x.decode b.1
    (!p.isNan && q.isNan) || ltNum q p || ((eqNum p q || (p.isNan && q.isNan)) && decide (a.2 < b.2))
  | .int w s =>
    let p := intVal w s a.1
    let q := intVal w s b.1
    decide (q < p) || (p == q && decide (a.2 < b.2))

def insertCand (fmt : BitVec 3) (a : Cand) : List Cand → List Cand
  | [] => [a]
  | b :: l => if precedes fmt a b then a :: b :: l else b :: insertCand fmt a l

def rank (fmt : BitVec 3) (l : List Cand) : List Cand := l.foldr (insertCand fmt) []

/-- The merge loop of R409; a list that has run out gives the other. -/
def mergeCands (fmt : BitVec 3) : Nat → List Cand → List Cand → List Cand
  | 0, _, _ => []
  | n + 1, a :: l, b :: r =>
    if precedes fmt b a then b :: mergeCands fmt n (a :: l) r else a :: mergeCands fmt n l (b :: r)
  | n + 1, a :: l, [] => a :: mergeCands fmt n l []
  | n + 1, [], b :: r => b :: mergeCands fmt n [] r
  | _ + 1, [], [] => []

/-- Lane `n` of a row from its list; the lanes past the list are 0. -/
def candLane (f : Cand → Nat) (l : List Cand) (n : Nat) : Nat := (l[n]?.map f).getD 0

/-- The pairs in the first `k` lanes of a row of two registers. -/
def rowCands (v ix : VReg) (r k : Nat) : List Cand :=
  (List.range k).map fun n => (vElem 32 v (64 * r + n), vElem 32 ix (64 * r + n))

/-- The winners of a row. -/
def topRow (fmt : BitVec 3) (k : Nat) (v : VReg) (r : Nat) : List Cand :=
  (rank fmt ((List.range 64).map fun j => (vElem 32 v (64 * r + j), j))).take k

/-- A register of 16 rows from lists of winners. -/
def candReg (f : Cand → Nat) (rows : Nat → List Cand) : VReg :=
  ofElems 32 fun i => candLane f (rows (i / 64)) (i % 64)

/-- The name after a name (R408). -/
def nextName (n : BitVec 5) : BitVec 5 := n + 1

def stVtopk (g : Guard) (fmt : BitVec 3) (vd : BitVec 5) (s1 s2 s3 : VSrc) (km1 : BitVec 8) (mg : Bool) (e : KEngine) :
    Stage :=
  let cs := e.active g
  let k := km1.toNat + 1
  let ix : VSrc := ⟨false, (nextName (s1.sel.setWidth 5)).setWidth 6⟩
  let rows (c : ClId) (r : Nat) : List Cand :=
    if mg then
      mergeCands fmt k (rowCands (srcVal e c hVB1 32 s1) (srcVal e c hVB1 32 ix) r k)
        (rowCands (srcVal e c hVB2 32 s2) (srcVal e c hVB3 32 s3) r k)
    else topRow fmt k (srcVal e c hVB1 32 s1) r
  let more : Stage :=
    if mg then (srcStage e cs hVB1 32 ix).join ((srcStage e cs hVB2 32 s2).join (srcStage e cs hVB3 32 s3))
    else .none
  ((vbSlot g 2 e).join ((srcStage e cs hVB1 32 s1).join more)).join
    ((landReg e 6 cs vd fun c => candReg Prod.fst (rows c)).join
      (landReg e 6 cs (nextName vd) fun c => candReg Prod.snd (rows c)))

/-! ## vtrn (R410) -/

/-- The source element of element `i`. -/
def trnIndex (w : Nat) (inv : Bool) (i : Nat) : Nat :=
  let k := 512 / w
  if inv then i % 64 * k + i / 64 else i % k * 64 + i / k

def stVtrn (g : Guard) (fmt : BitVec 3) (vd : BitVec 5) (s1 : VSrc) (inv : Bool) (e : KEngine) : Stage :=
  let w := fmtW fmt
  vbStage1 g 3 w vd s1 ⟨false, 0⟩ e fun _ v i => moved w v (trnIndex w inv i)

/-! ## vmask (R404) -/

/-- The mask that a source field names. -/
def maskName (s : VSrc) : Fin 8 := (s.sel.setWidth 3).toFin

def stVmask (g : Guard) (op : BitVec 4) (fmt : BitVec 3) (md : BitVec 3) (s1 s2 : VSrc) (e : KEngine) : Stage :=
  let w := fmtW fmt
  let cs := e.active g
  let two (f : MaskR → MaskR → MaskR) : Stage :=
    ((readAll cs (.m (maskName s1).val)).join (readAll cs (.m (maskName s2).val))).join
      (landAll 2 cs fun c => .maskReg md.toFin (f e.cl[c].m[maskName s1] e.cl[c].m[maskName s2]) (BitVec.allOnes 2048))
  (vbSlot g 1 e).join
    (match op.toNat with
    | 0 => two fun a b => a &&& b
    | 1 => two fun a b => a ||| b
    | 2 => two fun a b => a ^^^ b
    | 3 => two fun a b => a &&& ~~~b
    | 4 =>
      (readAll cs (.m (maskName s1).val)).join
        (landAll 2 cs fun c => .maskReg md.toFin (~~~e.cl[c].m[maskName s1]) (BitVec.allOnes 2048))
    | 5 => landAll 2 cs fun _ => .maskReg md.toFin (maskOf w fun i => decide (i < e.lit.toNat)) (BitVec.allOnes 2048)
    | _ =>
      (srcStage e cs hVB1 w s1).join
        (landAll 2 cs fun c =>
          .maskReg md.toFin (maskOf w fun i => vElem w (srcVal e c hVB1 w s1) i != 0) (BitVec.allOnes 2048)))

/-! ## Meanings -/

/-- R405. -/
def execVmov (g : Guard) (fmt : BitVec 3) (vd : BitVec 5) (s1 : VSrc) (m : MSel) (s : State) : Out :=
  .next (slotStepE (stVmov g fmt vd s1 m) s)
/-- R405. -/
def execVsel (g : Guard) (fmt : BitVec 3) (vd : BitVec 5) (s1 s3 : VSrc) (msk : BitVec 3) (s : State) : Out :=
  .next (slotStepE (stVsel g fmt vd s1 s3 msk) s)
/-- R398. -/
def execVcmp (g : Guard) (cond : BitVec 4) (fmt : BitVec 3) (md : BitVec 3) (s1 s2 : VSrc) (m : MSel) (s : State) :
    Out :=
  .next (slotStepE (stVcmp g cond fmt md s1 s2 m) s)
/-- R397. -/
def execVrotr (g : Guard) (fmt : BitVec 3) (vd : BitVec 5) (s1 : VSrc) (n : BitVec 8) (m : MSel) (s : State) : Out :=
  .next (slotStepE (stVrotr g fmt vd s1 n m) s)
/-- R397. -/
def execVrotc (g : Guard) (fmt : BitVec 3) (vd : BitVec 5) (s1 : VSrc) (n : BitVec 8) (m : MSel) (s : State) : Out :=
  .next (slotStepE (stVrotc g fmt vd s1 n m) s)
/-- R397. -/
def execVbcr (g : Guard) (fmt : BitVec 3) (vd : BitVec 5) (s1 : VSrc) (n : BitVec 8) (m : MSel) (s : State) : Out :=
  .next (slotStepE (stVbcr g fmt vd s1 n m) s)
/-- R397. -/
def execVbcc (g : Guard) (fmt : BitVec 3) (vd : BitVec 5) (s1 : VSrc) (n : BitVec 8) (m : MSel) (s : State) : Out :=
  .next (slotStepE (stVbcc g fmt vd s1 n m) s)
/-- R406, R407. -/
def execVredr (g : Guard) (op : BitVec 4) (fmt : BitVec 3) (vd : BitVec 5) (s1 : VSrc) (m : MSel) (s : State) : Out :=
  .next (slotStepE (stVredr g op fmt vd s1 m) s)
/-- R406, R407. -/
def execVredc (g : Guard) (op : BitVec 4) (fmt : BitVec 3) (vd : BitVec 5) (s1 : VSrc) (m : MSel) (s : State) : Out :=
  .next (slotStepE (stVredc g op fmt vd s1 m) s)
/-- R406, R407. -/
def execVscanr (g : Guard) (op : BitVec 4) (fmt : BitVec 3) (vd : BitVec 5) (s1 : VSrc) (m : MSel) (s : State) : Out :=
  .next (slotStepE (stVscanr g op fmt vd s1 m) s)
/-- R403. -/
def execViota (g : Guard) (mode : BitVec 4) (fmt : BitVec 3) (vd : BitVec 5) (m : MSel) (s : State) : Out :=
  .next (slotStepE (stViota g mode fmt vd m) s)
/-- R408, R409. -/
def execVtopk (g : Guard) (fmt : BitVec 3) (vd : BitVec 5) (s1 s2 s3 : VSrc) (km1 : BitVec 8) (mg : Bool) (s : State) :
    Out :=
  .next (slotStepE (stVtopk g fmt vd s1 s2 s3 km1 mg) s)
/-- R410. -/
def execVtrn (g : Guard) (fmt : BitVec 3) (vd : BitVec 5) (s1 : VSrc) (inv : Bool) (s : State) : Out :=
  .next (slotStepE (stVtrn g fmt vd s1 inv) s)
/-- R404. -/
def execVmask (g : Guard) (op : BitVec 4) (fmt : BitVec 3) (md : BitVec 3) (s1 s2 : VSrc) (s : State) : Out :=
  .next (slotStepE (stVmask g op fmt md s1 s2) s)

end Sys2Proof.Machine
end

