-- ==== Sys2Proof/Machine/KMx.lean ====
section
/-! DEFINITION. The MX slot: the tile multiplier, accumulators, operand memory, and lending bank 3 (R103, R104, R319,
R320, R325 to R332, R334, R336, R337). -/

namespace Sys2Proof.Machine

open Sys2Proof

/-! ## mma (R329 to R332) -/

/-- The fields of an mma. -/
structure MmaOp where
  fa  : BitVec 4
  fb  : BitVec 4
  acc : BitVec 3
  oa  : BitVec 5
  ob  : BitVec 5
  za  : BitVec 4
  zb  : BitVec 4
  deriving DecidableEq, Repr

/-- The mma as it starts in a cluster: scales and first operand part are read at issue (R331). -/
def MmaOp.start (x : MmaOp) (e : KEngine) (c : ClId) : MmaRun :=
  MmaRun.read ⟨x.fa, x.fb, x.acc, x.oa, x.ob, e.cl[c].z[x.za.toFin], e.cl[c].z[x.zb.toFin], e.stepNo, 0, 0⟩
    e.cl[c] e.stepNo

/-- Steps from issue to landing (R329). -/
def mmaLat (fa : BitVec 4) : Nat := mmaSteps fa + 1

def unclaimed (e : KEngine) (cs : List ClId) (o : BitVec 5) : Bool := cs.any fun c => e.cl[c].opmSt[o.toFin] != .owned

/-- One issue of an mma in the given clusters (R330 to R332). -/
def mmaStage (x : MmaOp) (cs : List ClId) (e : KEngine) : Stage :=
  { landAll (mmaLat x.fa) cs fun c => .mma (x.start e c) with
    faults := faultIf (decide (e.stepNo < e.mulFree)) cKernelSlotBusy ++ faultIf (e.absent x.acc) cKernelAccAbsent
      ++ faultIf (unclaimed e cs x.oa || unclaimed e cs x.ob) cKernelOpmUnclaimed
    occMul := mmaSteps x.fa }

def stMma (g : Guard) (fa fb : BitVec 4) (acc : BitVec 3) (oa ob : BitVec 5) (za zb : BitVec 4) (e : KEngine) : Stage :=
  (guardStage g 24).join (mmaStage ⟨fa, fb, acc, oa, ob, za, zb⟩ (e.active g) e)

/-! ## mzero and mdrain (R325, R326, R334) -/

def stMzero (g : Guard) (acc : BitVec 3) (e : KEngine) : Stage :=
  ((guardStage g 2).join (.fault (faultIf (e.absent acc) cKernelAccAbsent))).join
    (landAll 1 (e.active g) fun _ => .accZero acc)

/-- Element `i` of drained register `q` (R325). -/
def drainSlot (fmt : BitVec 3) (a : AccV) (q i : Nat) : Nat :=
  if fmt = 0 ∨ fmt = 3 then (drainElem fmt (elemAt 32 a (1024 * q + i)).toNat).1
  else if i % 128 < 64 then (drainElem fmt (elemAt 32 a (1024 * q + i / 128 * 64 + i % 128)).toNat).1
  else 0

def drainReg (fmt : BitVec 3) (a : AccV) (q : Nat) : VReg :=
  ofElems (if fmt = 0 ∨ fmt = 3 then 32 else 16) (drainSlot fmt a q)

/-- The TSR bits of a drain. -/
def drainTsr (fmt : BitVec 3) (a : AccV) : BitVec 3 :=
  (List.range 4096).foldl (fun t i => t ||| (drainElem fmt (elemAt 32 a i).toNat).2.1) 0

def drainFlags (fmt : BitVec 3) (a : AccV) : KF :=
  orFlags ((List.range 4096).map fun i => (drainElem fmt (elemAt 32 a i).toNat).2.2)

def stMdrain (g : Guard) (fmt : BitVec 3) (acc : BitVec 3) (v : BitVec 5) (e : KEngine) : Stage :=
  let cs := e.active g
  let reg (q : Nat) : Stage :=
    landReg e 4 cs (v + BitVec.ofNat 5 q) fun c => drainReg fmt (e.cl[c].accGet acc) q
  let head : Stage :=
    { guardStage g 2 with
      faults := faultIf (decide (e.stepNo < e.drFree)) cKernelSlotBusy ++ faultIf (e.absent acc) cKernelAccAbsent
      occDr := 2 }
  (head.join (readAll cs (.acc acc.toNat))).join
    (((reg 0).join (reg 1)).join (((reg 2).join (reg 3)).join
      ((landAll 4 cs fun c => .tsr acc (drainTsr fmt (e.cl[c].accGet acc))).join
        (flagAll cs fun c => drainFlags fmt (e.cl[c].accGet acc)))))

/-! ## Operand memory (R103, R327, R328, R336, R337) -/

/-- The bytes that mfill puts into a slot. -/
def fillReg (tr : Bool) (v : VReg) : VReg :=
  if tr then joinE 8 (fun i => elemAt 8 v (64 * (i % 64) + i / 64)) 4096 else v

/-- The mma in flight that read a slot in a cluster and have parts left or are in the multiplier on this step. -/
def readersOf (e : KEngine) (c : ClId) (o : BitVec 5) : List MmaRun :=
  e.infl.filterMap fun f =>
    match f.what with
    | .mma r => if f.cl = c ∧ (r.oa = o ∨ r.ob = o) ∧ e.stepNo < r.t0 + mmaSteps r.fa then some r else none
    | _ => none

/-- R328: an mfill that would land before the last read step of an mma in flight on its slot. -/
def fillShort (e : KEngine) (cs : List ClId) (o : BitVec 5) : Bool :=
  e.chk && cs.any fun c => (readersOf e c o).any fun r => decide (e.stepNo + 2 < r.t0 + mmaSteps r.fa - 1)

def stMfill (g : Guard) (oa v : BitVec 5) (tr : Bool) (e : KEngine) : Stage :=
  let cs := e.active g
  ((guardStage g 2).join (regStage e cs v)).join
    ((Stage.fault (faultIf (unclaimed e cs oa) cKernelOpmUnclaimed ++ faultIf (fillShort e cs oa) cKernelStallShort)).join
      (landAll 2 cs fun c => .opm oa.toFin (fillReg tr e.cl[c].v[e.phys v])))

def stOclaim (g : Guard) (oa : BitVec 5) (e : KEngine) : Stage :=
  let cs := e.active g
  (guardStage g 2).join
    { landAll 1 cs fun _ => .opmState oa.toFin .owned with
      faults := faultIf (cs.any fun c => e.cl[c].opmSt[oa.toFin] = .owned) cKernelOpmClaimed
      claims := cs.map fun c => (c, oa) }

/-- Steps until the last of the given mma leaves the multiplier. -/
def lastLeave (e : KEngine) : List MmaRun → Nat
  | [] => 1
  | r :: l => max (r.t0 + mmaSteps r.fa - e.stepNo) (lastLeave e l)

/-- orel in one cluster (R336). -/
def orelLands (e : KEngine) (o : BitVec 5) (c : ClId) : List (Nat × ClId × Landing) :=
  if e.cl[c].opmSt[o.toFin] = .owned then
    match readersOf e c o with
    | [] => [(1, c, .opmState o.toFin .free)]
    | l => [(1, c, .opmState o.toFin .releasing), (lastLeave e l, c, .opmState o.toFin .free)]
  else []

def stOrel (g : Guard) (oa : BitVec 5) (e : KEngine) : Stage :=
  (guardStage g 2).join { Stage.none with lands := (e.active g).flatMap (orelLands e oa) }

/-! ## lend and recall (R104, R319, R320) -/

def stLend (g : Guard) (_bank : BitVec 3) (e : KEngine) : Stage :=
  (guardStage g 2).join
    { landAll 1 [0] fun _ => .lend true with faults := faultIf e.lent cKernelLendBusy, lends := true }

/-- The accumulators of the reissues still to come (R319). -/
def RepRun.accs (r : RepRun) : List Nat :=
  (List.range r.n).filterMap fun k => if r.k ≤ k then some (r.acc.toNat + if r.iacc then k else 0) else none

/-- An mma, mzero or mdrain that names acc4 or acc5 has not landed, or is still to come. -/
def lentInUse (e : KEngine) : Bool :=
  (e.infl.any fun f =>
    match f.what with
    | .mma r => decide (4 ≤ r.acc.toNat)
    | .accZero a => decide (4 ≤ a.toNat)
    | .tsr a _ => decide (4 ≤ a.toNat)
    | _ => false)
  || match e.rep with
    | none => false
    | some r => r.accs.any fun a => decide (4 ≤ a)

def stRecall (g : Guard) (_bank : BitVec 3) (e : KEngine) : Stage :=
  (guardStage g 2).join
    (if e.lent then
      { landAll 1 [0] fun _ => .lend false with faults := faultIf (lentInUse e) cKernelLendBusy }
    else .none)

/-! ## Meanings -/

/-- R329 to R332. -/
def execMma (g : Guard) (fa fb : BitVec 4) (acc : BitVec 3) (oa ob : BitVec 5) (za zb : BitVec 4) (s : State) : Out :=
  .next (slotStepE (stMma g fa fb acc oa ob za zb) s)
/-- R334. -/
def execMzero (g : Guard) (acc : BitVec 3) (s : State) : Out := .next (slotStepE (stMzero g acc) s)
/-- R325, R326. -/
def execMdrain (g : Guard) (fmt : BitVec 3) (acc : BitVec 3) (v : BitVec 5) (s : State) : Out :=
  .next (slotStepE (stMdrain g fmt acc v) s)
/-- R327, R328. -/
def execMfill (g : Guard) (oa v : BitVec 5) (tr : Bool) (s : State) : Out := .next (slotStepE (stMfill g oa v tr) s)
/-- R336, R337. -/
def execOclaim (g : Guard) (oa : BitVec 5) (s : State) : Out := .next (slotStepE (stOclaim g oa) s)
/-- R336, R337. -/
def execOrel (g : Guard) (oa : BitVec 5) (s : State) : Out := .next (slotStepE (stOrel g oa) s)
/-- R319, R320. -/
def execLend (g : Guard) (bank : BitVec 3) (s : State) : Out := .next (slotStepE (stLend g bank) s)
/-- R319, R320. -/
def execRecall (g : Guard) (bank : BitVec 3) (s : State) : Out := .next (slotStepE (stRecall g bank) s)

end Sys2Proof.Machine
end

