-- ==== Sys2Proof/Machine/KPack.lean ====
section
/-! DEFINITION. The UP, PK and SC slots: unpack, pack, block scales and scale registers (R123 to R126, R339 to R343, R354,
R355, R389 to R391). -/

namespace Sys2Proof.Machine

open Sys2Proof

/-! ## Element positions (R339) -/

/-- The wide floating format of WIDE. -/
def wideFmt (wide : BitVec 2) : FFmt := if wide = 0 then fp32 else if wide = 1 then bf16 else fp16
/-- Width of a wide element, and their number in a register. -/
def wideW (wide : BitVec 2) : Nat := if wide = 0 then 32 else 16
def wideN (wide : BitVec 2) : Nat := nElems (wideW wide)

/-- Narrow element `n` of format FMT: bit position and width. The 6-bit formats fill 48 bytes of each 64-byte line. -/
def narrowPos (fmt : BitVec 3) (n : Nat) : Nat × Nat :=
  match fmt.toNat with
  | 2 => (512 * (n / 64) + 6 * (n % 64), 6)
  | 3 => (512 * (n / 64) + 6 * (n % 64), 6)
  | 4 => (4 * n, 4)
  | _ => (8 * n, 8)

def narrowElem (fmt : BitVec 3) (v : VReg) (n : Nat) : Nat :=
  (v.extractLsb' (narrowPos fmt n).1 (narrowPos fmt n).2).toNat

/-- Scale byte and spare byte of narrow block `nb`; the spare is SB4's alone. -/
def scaleOf (fmt : BitVec 3) (z : ZReg) (nb : Nat) : Nat × Nat :=
  if fmt = 4 then (zByte z (2 * nb), zByte z (2 * nb + 1)) else (zByte z nb, 0)

/-- A block that decodes as NaN (R122, R124). -/
def blockNan (fmt : BitVec 3) (sc : Nat × Nat) : Bool := sc.1 == 0xFF || (fmt == 4 && (e4m3.decode sc.2).isNan)

/-- The value of a narrow code before its scale. -/
def narrowNum (fmt : BitVec 3) (sc : Nat × Nat) (c : Nat) : NumVal :=
  if fmt = 4 then sb4Num c sc.2 else (narrowFmt fmt).decode c

/-! ## unpk and unpki (R390) -/

/-- One unpacked element. -/
def unpkElem (fmt : BitVec 3) (wide : BitVec 2) (scl : Bool) (sc : Nat × Nat) (c : Nat) : Nat × KF :=
  let f := wideFmt wide
  if scl && blockNan fmt sc then (f.nanCode, fNV)
  else
    let x := narrowNum fmt sc c
    f.ofNum .rne (if scl then scaleNum x ((sc.1 : Int) - 127) else x)

/-- An op of the UP slot. -/
def upStage (g : Guard) (wide : BitVec 2) (vd : BitVec 5) (s1 : VSrc) (e : KEngine)
    (f : ClId → VReg → Nat → Nat × KF) : Stage :=
  ((guardStage g 2).join (srcStage e (e.active g) hUP 32 s1)).join
    (vecStage e g 2 (wideW wide) vd ⟨false, 0⟩ fun c i => f c (srcVal e c hUP 32 s1) i)

def stUnpk (g : Guard) (fmt : BitVec 3) (wide : BitVec 2) (vd : BitVec 5) (s1 : VSrc) (z : BitVec 4) (scl : Bool)
    (part : BitVec 3) (e : KEngine) : Stage :=
  upStage g wide vd s1 e fun c v i =>
    let n := part.toNat * wideN wide + i
    unpkElem fmt wide scl (scaleOf fmt e.cl[c].z[z.toFin] (n / 32)) (narrowElem fmt v n)

def stUnpki (g : Guard) (fmt : BitVec 3) (wide : BitVec 2) (vd : BitVec 5) (s1 : VSrc) (part : BitVec 3)
    (e : KEngine) : Stage :=
  upStage g wide vd s1 e fun _ v i =>
    (intBits (wideW wide) (intVal 8 true (narrowElem fmt v (part.toNat * wideN wide + i))), 0)

/-! ## pack and packi (R340, R341) -/

/-- The candidate of greatest magnitude with the sign of an infinity: the spare if its value has that sign and lies
beyond 6, else ±6 (R340). -/
def sb4Far (neg : Bool) (sv : NumVal) : Nat :=
  if sv.neg = neg ∧ absLt (.fin false 6 0) sv then 8 else if neg then 15 else 7

/-- One packed element. -/
def packElem (fmt : BitVec 3) (scl : Bool) (sc : Nat × Nat) (x : NumVal) : Nat × KF :=
  if !scl then packNarrow (narrowFmt fmt) x
  else if blockNan fmt sc then (0, 0)
  else
    let y := scaleNum x (127 - (sc.1 : Int))
    if fmt = 4 then
      let sv := e4m3.decode sc.2
      match y with
      | .nan _ => (0, fNV)
      | .inf n => (sb4Far n sv, fSAT)
      | .fin .. =>
        let r := sb4Nearest y sv
        (r.1, flagIf (!eqNum r.2 y) fNX)
    else packNarrow (narrowFmt fmt) y

/-- `n` elements of width `w` as the low bits of a register. -/
def lowElems (w n : Nat) (f : Nat → Nat) : VReg := (joinE w (fun i => BitVec.ofNat w (f i)) n).setWidth 32768

/-- The part of a narrow register from its codes, at bit 0: 6-bit codes stand in lines whose last 16 bytes are 0. -/
def partBits (fmt : BitVec 3) (n : Nat) (f : Nat → Nat) : VReg :=
  if fmt = 2 ∨ fmt = 3 then
    (joinE 512 (fun l => (joinE 6 (fun t => BitVec.ofNat 6 (f (64 * l + t))) 64).setWidth 512) (n / 64)).setWidth 32768
  else if fmt = 4 then lowElems 4 n f
  else lowElems 8 n f

/-- Bits of the register that one element of a part accounts for. -/
def partPitch (fmt : BitVec 3) : Nat := if fmt = 4 then 4 else 8

/-- An op that writes part `part` of VD, `n` elements at a pitch of `p` bits. VD is a source for KCHK (R343). -/
def pkStage (g : Guard) (p n : Nat) (w : Nat) (vd : BitVec 5) (s1 : VSrc) (part : BitVec 3) (e : KEngine)
    (low : ClId → VReg → VReg) (fl : ClId → VReg → KF) : Stage :=
  let cs := e.active g
  let sh := part.toNat * n * p
  ((guardStage g 2).join ((srcStage e cs hPK w s1).join (readAll cs (.v (e.phys vd).val)))).join
    ((destFault e vd).join
      ((landAll 3 cs fun c =>
          .vreg (e.phys vd) (low c (srcVal e c hPK w s1) <<< sh) (BitVec.ofNat 32768 (2 ^ (n * p) - 1) <<< sh)).join
        (flagAll cs fun c => fl c (srcVal e c hPK w s1))))

def stPack (g : Guard) (fmt : BitVec 3) (wide : BitVec 2) (vd : BitVec 5) (s1 : VSrc) (z : BitVec 4) (scl : Bool)
    (part : BitVec 3) (e : KEngine) : Stage :=
  let n := wideN wide
  let w := wideW wide
  let r (c : ClId) (v : VReg) (i : Nat) : Nat × KF :=
    packElem fmt scl (scaleOf fmt e.cl[c].z[z.toFin] ((part.toNat * n + i) / 32)) ((wideFmt wide).decode (vElem w v i))
  pkStage g (partPitch fmt) n w vd s1 part e (fun c v => partBits fmt n fun i => (r c v i).1)
    fun c v => orFlags ((List.range n).map fun i => (r c v i).2)

/-- The width packi narrows to: INT8, or INT16 for FMT 0. -/
def packiW (fmt : BitVec 3) : Nat := if fmt = 0 then 16 else 8

def stPacki (g : Guard) (fmt : BitVec 3) (wide : BitVec 2) (vd : BitVec 5) (s1 : VSrc) (part : BitVec 3)
    (e : KEngine) : Stage :=
  let n := wideN wide
  let w := wideW wide
  let r (v : VReg) (i : Nat) : Nat × KF := intFit (packiW fmt) true true fSAT (intVal w true (vElem w v i))
  pkStage g (packiW fmt) n w vd s1 part e (fun _ v => lowElems (packiW fmt) n fun i => (r v i).1)
    fun _ v => orFlags ((List.range n).map fun i => (r v i).2)

/-! ## pscale (R342) -/

/-- The wide elements of block `b` of a part. -/
def blockNums (wide : BitVec 2) (v : VReg) (b : Nat) : List NumVal :=
  (List.range 32).map fun j => (wideFmt wide).decode (vElem (wideW wide) v (32 * b + j))

/-- Scale, spare and flags of a block. -/
def pscaleOf (fmt : BitVec 3) (l : List NumVal) : Nat × Nat × KF :=
  if fmt = 4 then
    let x := sb4Encode l
    (x.scale, x.spare, x.flags &&& ~~~fNX)
  else
    let x := pscaleBlock fmt l
    (x.1, 0, x.2)

/-- Bytes of a scale register that the blocks of a part take, from byte `lo`. -/
def zBytes (lo n : Nat) (f : Nat → Nat) : ZReg :=
  (joinE 8 (fun i => BitVec.ofNat 8 (f i)) n).setWidth 4096 <<< (8 * lo)

def stPscale (g : Guard) (fmt : BitVec 3) (wide : BitVec 2) (s1 : VSrc) (z : BitVec 4) (part : BitVec 3)
    (e : KEngine) : Stage :=
  let cs := e.active g
  let w := wideW wide
  let nb := wideN wide / 32
  let k := if fmt = 4 then 2 else 1
  let val (v : VReg) (i : Nat) : Nat :=
    let x := pscaleOf fmt (blockNums wide v (i / k))
    if fmt = 4 ∧ i % 2 = 1 then x.2.1 else x.1
  ((guardStage g 2).join (srcStage e cs hPK w s1)).join
    ((landAll 3 cs fun c =>
        .zreg z.toFin (zBytes (part.toNat * nb * k) (nb * k) (val (srcVal e c hPK w s1)))
          (zBytes (part.toNat * nb * k) (nb * k) fun _ => 0xFF)).join
      (flagAll cs fun c =>
        orFlags ((List.range nb).map fun b => (pscaleOf fmt (blockNums wide (srcVal e c hPK w s1) b)).2.2)))

/-! ## scld and scset (R355) -/

def stScld (g : Guard) (zd : BitVec 4) (vs : BitVec 5) (row : BitVec 3) (e : KEngine) : Stage :=
  let cs := e.active g
  ((guardStage g 1).join (regStage e cs vs)).join
    (landAll 4 cs fun c =>
      .zreg zd.toFin (e.cl[c].v[e.phys vs].extractLsb' (4096 * row.toNat) 4096) (BitVec.allOnes 4096))

def stScset (g : Guard) (zd : BitVec 4) (e : KEngine) : Stage :=
  (guardStage g 1).join
    (landAll 1 (e.active g) fun _ => .zreg zd.toFin (zBytes 0 512 fun _ => e.lit.toNat) (BitVec.allOnes 4096))

/-! ## Meanings -/

/-- R389 to R391. -/
def execUnpk (g : Guard) (fmt : BitVec 3) (wide : BitVec 2) (vd : BitVec 5) (s1 : VSrc) (z : BitVec 4) (scl : Bool)
    (part : BitVec 3) (s : State) : Out := .next (slotStepE (stUnpk g fmt wide vd s1 z scl part) s)
/-- R389 to R391. -/
def execUnpki (g : Guard) (fmt : BitVec 3) (wide : BitVec 2) (vd : BitVec 5) (s1 : VSrc) (part : BitVec 3)
    (s : State) : Out := .next (slotStepE (stUnpki g fmt wide vd s1 part) s)
/-- R339, R340, R343. -/
def execPack (g : Guard) (fmt : BitVec 3) (wide : BitVec 2) (vd : BitVec 5) (s1 : VSrc) (z : BitVec 4) (scl : Bool)
    (part : BitVec 3) (s : State) : Out := .next (slotStepE (stPack g fmt wide vd s1 z scl part) s)
/-- R341, R343. -/
def execPacki (g : Guard) (fmt : BitVec 3) (wide : BitVec 2) (vd : BitVec 5) (s1 : VSrc) (part : BitVec 3)
    (s : State) : Out := .next (slotStepE (stPacki g fmt wide vd s1 part) s)
/-- R342, R343. -/
def execPscale (g : Guard) (fmt : BitVec 3) (wide : BitVec 2) (s1 : VSrc) (z : BitVec 4) (part : BitVec 3)
    (s : State) : Out := .next (slotStepE (stPscale g fmt wide s1 z part) s)
/-- R354, R355. -/
def execScld (g : Guard) (zd : BitVec 4) (vs : BitVec 5) (row : BitVec 3) (s : State) : Out :=
  .next (slotStepE (stScld g zd vs row) s)
/-- R354, R355. -/
def execScset (g : Guard) (zd : BitVec 4) (s : State) : Out := .next (slotStepE (stScset g zd) s)

end Sys2Proof.Machine
end

