-- ==== Sys2Proof/Machine/KSrf.lean ====
section
/-! DEFINITION. The SI and SO slots: tiles of the SRF read and written by a kernel (R72, R73, R364 to R367, R371, R372).
-/

namespace Sys2Proof.Machine

open Sys2Proof

/-- A tile access in one cluster: faults, and where it goes. -/
inductive TilePlace where
  | bad (c : Cause)
  | srf (sp : SpId) (off : Nat)
  | window (k : Fin 16) (off : Nat)
  deriving DecidableEq, Repr

def TilePlace.faults : TilePlace → List Cause
  | .bad c => [c]
  | _ => []

/-- The tile at a cursor (R72). -/
def cursorPlace (s : State) (sp : SpId) (q : BitVec 3) (c : ClId) : TilePlace :=
  let p := s.sp sp
  let f := p.ke.cl[c].q[q.toFin].toNat
  if !p.ke.bind[q.toFin].valid then .bad cKernelCursorUnbound
  else if f ≥ p.alloc then .bad cFSpaceHole
  else .srf sp f

/-- The computed offset of srdx, swrx and swra. -/
def tileAddr (e : KEngine) (c : ClId) (ar : BitVec 5) (l : Bool) : Nat :=
  (e.cl[c].aGet c ar.toNat + if l then e.lit else 0).toNat

/-- Bank of an offset (R66). -/
def bankBits (f : Nat) : Nat := f / 0x1000 % 8

/-- srdx and swrx: the own bank only (R73, R365, R372). -/
def ownPlace (s : State) (sp : SpId) (ar : BitVec 5) (l : Bool) (c : ClId) : TilePlace :=
  let f := tileAddr (s.sp sp).ke c ar l
  if f % 0x1000 ≠ 0 then .bad cFMisaligned
  else if f ≥ 0x80_0000 ∨ bankBits f ≠ c.val then .bad cKernelBankForeign
  else if f ≥ (s.sp sp).alloc then .bad cFSpaceHole
  else .srf sp f

/-- An offset in the local SRF or in the own seat's window. -/
def ownRange (p : Sp) (f : Nat) : Bool :=
  decide (f < 0x80_0000)
    || (decide (0x0800_0000 ≤ f) && (f - 0x0800_0000) / 0x80_0000 == p.id.seat.toNat)

/-- swra: any F-space range (R365). Log 15: a tile that passes the end of the target SRF is a hole. -/
def anyPlace (s : State) (sp : SpId) (ar : BitVec 5) (l : Bool) (c : ClId) : TilePlace :=
  let p := s.sp sp
  let f := tileAddr p.ke c ar l
  if f % 0x1000 ≠ 0 then .bad cFMisaligned
  else if ownRange p f && bankBits f != c.val then .bad cKernelBankForeign
  else match s.fDecode sp f with
    | .srf t off => .srf t off
    | .window k off => if 0x1000 + (p.r.win[k].rbase.toNat + off) > 0x80_0000 then .bad cFSpaceHole else .window k off
    | .hole => .bad cFSpaceHole

/-- A read of the tile of each active cluster (R371). -/
def readTiles (s : State) (sp : SpId) (g : Guard) (vd : BitVec 5) (place : ClId → TilePlace) : Stage :=
  let e := (s.sp sp).ke
  let cs := e.active g
  let off (c : ClId) : Nat :=
    match place c with
    | .srf _ f => f
    | _ => 0
  ((guardStage g 3).join { Stage.none with faults := cs.flatMap fun c => (place c).faults, need := cs.map off }).join
    ((landReg e 3 cs vd fun c => (s.sp sp).tile (off c) 32).checkedIn cs)

/-- A write of the tile of each active cluster (R364, R366). -/
def writeTiles (s : State) (sp : SpId) (g : Guard) (s1 : VSrc) (place : ClId → TilePlace) : Stage :=
  let e := (s.sp sp).ke
  let cs := e.active g
  let d (c : ClId) : VReg := srcVal e c hSO 32 s1
  ((guardStage g 3).join ((srcStage e cs hSO 32 s1).checkedIn cs)).join
    { Stage.none with
      faults := cs.flatMap fun c => (place c).faults
      lands := cs.filterMap fun c =>
        match place c with
        | .srf t f => some (2, c, .srf t f (d c))
        | _ => none
      sends := cs.filterMap fun c =>
        match place c with
        | .window k f => some ⟨k, f, d c⟩
        | _ => none }

/-- The cursors of the active clusters advance (R72). -/
def advAll (cs : List ClId) (q : BitVec 3) : Stage := { Stage.none with advs := cs.map fun c => (c, q) }

/-- The scalar read of a computed offset. -/
def addrRead (s : State) (sp : SpId) (g : Guard) (ar : BitVec 5) : Stage :=
  scalarRead ((s.sp sp).ke.active g) ar.toNat

def stSrd (g : Guard) (vd : BitVec 5) (q : BitVec 3) (s : State) (sp : SpId) : Stage :=
  (readTiles s sp g vd (cursorPlace s sp q)).join (advAll ((s.sp sp).ke.active g) q)
def stSrdx (g : Guard) (vd ar : BitVec 5) (l : Bool) (s : State) (sp : SpId) : Stage :=
  (addrRead s sp g ar).join (readTiles s sp g vd (ownPlace s sp ar l))
def stSwr (g : Guard) (s1 : VSrc) (q : BitVec 3) (s : State) (sp : SpId) : Stage :=
  (writeTiles s sp g s1 (cursorPlace s sp q)).join (advAll ((s.sp sp).ke.active g) q)
def stSfill (g : Guard) (s1 : VSrc) (q : BitVec 3) (s : State) (sp : SpId) : Stage :=
  (writeTiles s sp g s1 (cursorPlace s sp q)).join (advAll ((s.sp sp).ke.active g) q)
def stSwrx (g : Guard) (s1 : VSrc) (ar : BitVec 5) (l : Bool) (s : State) (sp : SpId) : Stage :=
  (addrRead s sp g ar).join (writeTiles s sp g s1 (ownPlace s sp ar l))
def stSwra (g : Guard) (s1 : VSrc) (ar : BitVec 5) (l : Bool) (s : State) (sp : SpId) : Stage :=
  (addrRead s sp g ar).join (writeTiles s sp g s1 (anyPlace s sp ar l))

/-- R371, R372. -/
def execSrd (g : Guard) (vd : BitVec 5) (q : BitVec 3) (s : State) : Out := .next (slotStep (stSrd g vd q) s)
/-- R371, R372. -/
def execSrdx (g : Guard) (vd ar : BitVec 5) (l : Bool) (s : State) : Out := .next (slotStep (stSrdx g vd ar l) s)
/-- R364, R365. -/
def execSwr (g : Guard) (s1 : VSrc) (q : BitVec 3) (s : State) : Out := .next (slotStep (stSwr g s1 q) s)
/-- R364, R365. -/
def execSwrx (g : Guard) (s1 : VSrc) (ar : BitVec 5) (l : Bool) (s : State) : Out :=
  .next (slotStep (stSwrx g s1 ar l) s)
/-- R364 to R366. -/
def execSwra (g : Guard) (s1 : VSrc) (ar : BitVec 5) (l : Bool) (s : State) : Out :=
  .next (slotStep (stSwra g s1 ar l) s)
/-- R364, R365. -/
def execSfill (g : Guard) (s1 : VSrc) (q : BitVec 3) (s : State) : Out := .next (slotStep (stSfill g s1 q) s)

end Sys2Proof.Machine
end

