-- ==== Sys2Proof/Machine/KXs.lean ====
section
/-! DEFINITION. The XS slot: data between the clusters of an SP (R413 to R415, R417 to R420). -/

namespace Sys2Proof.Machine

open Sys2Proof

/-- Every cluster. -/
def allCl : List ClId := List.finRange 8

/-- The slot: busy check and occupancy. -/
def xsSlot (g : Guard) (occ : Nat) (e : KEngine) : Stage :=
  { guardStage g 4 with faults := faultIf (decide (e.stepNo < e.xsFree)) cKernelSlotBusy, occXs := occ }

/-- A vector source is read in every cluster, whatever the guard (R413); its hold latch is written where the guard is true (R91). -/
def xsSrc (g : Guard) (e : KEngine) (w : Nat) (s1 : VSrc) : Stage :=
  let r := srcStage e allCl hXS w s1
  { r with latch := r.latch.filter fun x => e.on g x.1 }
def xsVal (e : KEngine) (w : Nat) (s1 : VSrc) (c : ClId) : VReg := srcVal e c hXS w s1

/-- Cluster `c` receives the source of cluster `src c`, or zero. -/
def xsMove (g : Guard) (vd : BitVec 5) (s1 : VSrc) (e : KEngine) (src : ClId → Option ClId) : Stage :=
  ((xsSlot g 2 e).join (xsSrc g e 32 s1)).join
    (landReg e 6 (e.active g) vd fun c =>
      match src c with
      | some o => xsVal e 32 s1 o
      | none => 0)

/-- R417: xor, or gather by a[N][2:0]. -/
def permSrc (e : KEngine) (pat : BitVec 8) (c : ClId) : ClId :=
  if pat.toNat / 64 = 0 then Fin.ofNat 8 (c.val ^^^ (pat.toNat % 8))
  else Fin.ofNat 8 ((e.cl[c].aGet c (pat.toNat % 32)).toNat % 8)

def stXperm (g : Guard) (vd : BitVec 5) (s1 : VSrc) (pat : BitVec 8) (e : KEngine) : Stage :=
  (if pat.toNat / 64 = 0 then Stage.none else scalarRead allCl (pat.toNat % 32)).join
    (xsMove g vd s1 e fun c => some (permSrc e pat c))

def stXbcast (g : Guard) (vd : BitVec 5) (s1 : VSrc) (c : BitVec 3) (e : KEngine) : Stage :=
  xsMove g vd s1 e fun _ => some c.toFin

/-- R420: the cluster that cluster `c` takes its data from. -/
def shiftSrc (sh : BitVec 4) (circ : Bool) (c : ClId) : Option ClId :=
  let o : Int := (c.val : Int) - sh.toInt
  if circ then some (Fin.ofNat 8 (o % 8).toNat)
  else if 0 ≤ o ∧ o < 8 then some (Fin.ofNat 8 o.toNat)
  else none

def stXshift (g : Guard) (vd : BitVec 5) (s1 : VSrc) (sh : BitVec 4) (circ : Bool) (e : KEngine) : Stage :=
  xsMove g vd s1 e (shiftSrc sh circ)

/-- R419: the reduction of element `i` over the clusters whose guard is true. -/
def xredElem (g : Guard) (op : BitVec 4) (fmt : BitVec 3) (s1 : VSrc) (e : KEngine) (i : Nat) : Nat × KF :=
  reduce op (laneFmt fmt) ((e.active g).map fun c => vElem (fmtW fmt) (xsVal e (fmtW fmt) s1 c) i)

def stXred (g : Guard) (op : BitVec 4) (fmt : BitVec 3) (vd : BitVec 5) (s1 : VSrc) (e : KEngine) : Stage :=
  let cs := e.active g
  ((xsSlot g 2 e).join (xsSrc g e (fmtW fmt) s1)).join
    ((landReg e 6 cs vd fun _ => ofElems (fmtW fmt) fun i => (xredElem g op fmt s1 e i).1).join
      (flagAll cs fun _ => orFlags ((List.range (nElems (fmtW fmt))).map fun i => (xredElem g op fmt s1 e i).2)))

/-- R415. -/
def stXget (g : Guard) (ad : BitVec 5) (s1 : VSrc) (c : BitVec 3) (e : KEngine) : Stage :=
  ((xsSlot g 1 e).join (xsSrc g e 32 s1)).join
    (landAll 2 (e.active g) fun _ => .areg ad.toFin (elemAt 32 (xsVal e 32 s1 c.toFin) 0))

/-- R418: lane `i` of the result. -/
def putLane (e : KEngine) (as : BitVec 5) (bcast : Bool) (c : ClId) (i : Nat) : W32 :=
  if bcast then e.cl[c].aGet c as.toNat
  else if i < 8 then e.cl[(Fin.ofNat 8 i : ClId)].aGet (Fin.ofNat 8 i) as.toNat
  else 0

def stXput (g : Guard) (vd as : BitVec 5) (bcast : Bool) (e : KEngine) : Stage :=
  ((xsSlot g 1 e).join (scalarRead allCl as.toNat)).join
    (landReg e 2 (e.active g) vd fun c => ofLanes (putLane e as bcast c))

/-- R413, R417. -/
def execXperm (g : Guard) (vd : BitVec 5) (s1 : VSrc) (pat : BitVec 8) (s : State) : Out :=
  .next (slotStepE (stXperm g vd s1 pat) s)
/-- R413, R414. -/
def execXbcast (g : Guard) (vd : BitVec 5) (s1 : VSrc) (c : BitVec 3) (s : State) : Out :=
  .next (slotStepE (stXbcast g vd s1 c) s)
/-- R413, R419. -/
def execXred (g : Guard) (op : BitVec 4) (fmt : BitVec 3) (vd : BitVec 5) (s1 : VSrc) (s : State) : Out :=
  .next (slotStepE (stXred g op fmt vd s1) s)
/-- R413, R420. -/
def execXshift (g : Guard) (vd : BitVec 5) (s1 : VSrc) (sh : BitVec 4) (circ : Bool) (s : State) : Out :=
  .next (slotStepE (stXshift g vd s1 sh circ) s)
/-- R413, R415. -/
def execXget (g : Guard) (ad : BitVec 5) (s1 : VSrc) (c : BitVec 3) (s : State) : Out :=
  .next (slotStepE (stXget g ad s1 c) s)
/-- R413, R418. -/
def execXput (g : Guard) (vd as : BitVec 5) (bcast : Bool) (s : State) : Out :=
  .next (slotStepE (stXput g vd as bcast) s)

end Sys2Proof.Machine
end

