-- ==== Sys2Proof/Machine/KCtl.lean ====
section
/-! DEFINITION. The CTL field: successors, loops, calls, the end of a kernel and the repeat prefix (R94, R95, R99 to R102,
R215, R291, R292, R322, R323, R351 to R353). -/

namespace Sys2Proof.Machine

open Sys2Proof

/-- R308: a bundle index that the kernel may issue. -/
def KRun.inExtent (k : KRun) (n : Nat) : Bool :=
  decide (k.entry.toNat ≤ n) && decide (n < k.entry.toNat + k.blk.extent.toNat)

/-- A successor outside the extent faults KRUN_BINDING_BAD (R308). -/
def KRun.outFault (k : KRun) (n : Nat) : List Cause := faultIf (!k.inExtent n) cKrunBindingBad

/-- The index after the bundle that issues, as the selectors other than SEQ name it (R95; log 139). -/
def KRun.after (k : KRun) : Nat := k.kpc.toNat + 1

/-- The successor of a bundle with NEXT = SEQ: index 4,095 passes to index 0 (R94). -/
def KRun.seqNext (k : KRun) : Nat := k.after % 4096

/-- The bundle at an index of KIM. -/
def Sp.bundleAt (p : Sp) (n : BitVec 12) : Except DecodeError Bundle := decodeBundle (getAt 0 p.kim n.toNat)

/-- The mma of a bundle. -/
def mmaIn : List Instr → Option (Guard × MmaOp)
  | [] => none
  | .mma g fa fb acc oa ob za zb :: _ => some (g, ⟨fa, fb, acc, oa, ob, za, zb⟩)
  | _ :: l => mmaIn l

/-! ## Pre-emption at a poll point (R101, R215) -/

/-- A kernel-level pre-emption request of the SP's kernel (R215). -/
def drainAsked (s : State) (sp : SpId) : Bool :=
  reqPending s sp && match (s.sp sp).gang.bind s.gang? with
    | some g => gangAtRest s g
    | none => false

/-! ## The loop decision (R100, R215) -/

/-- The stage predicates of a cluster after a shift that brings in `x` (R100). -/
def shiftPreds (p : BitVec 16) (x : Bool) : BitVec 16 :=
  (p &&& 0x00FF) ||| ((p >>> 1) &&& 0x7F00) ||| (if x then 0x8000 else 0)

/-- One more pass. -/
def nextPass (e : KEngine) (enter : Bool) : KEngine :=
  { e.mapCl fun _ k => { k with p := shiftPreds k.p enter } with
    nps := e.nps - 1, nit := if enter then e.nit - 1 else e.nit, rot := e.rot + 1 }

/-- The bundle at `n` issues at step `due`. -/
def KEngine.goto (e : KEngine) (n : BitVec 12) (due : Nat) : KEngine :=
  { e with run := e.run.map fun k => { k with kpc := n, due := due } }

/-- No further bundle issues. -/
def KEngine.ends (e : KEngine) (n : BitVec 12) : KEngine :=
  { e with run := e.run.map fun k => { k with kpc := n, phase := .ending } }

/-- KEND: no further bundle issues, and the kernel ends, a drain that has begun with it (R95). -/
def KEngine.kends (e : KEngine) (n : BitVec 12) : KEngine :=
  { e with run := e.run.map fun k => { k with kpc := n, phase := .ending, nits := none } }

/-- A drain begins: NITS, NIT and NPS (R215). -/
def drainStart (e : KEngine) (target : BitVec 12) : KEngine :=
  { e with nit := 0, nps := e.nst.setWidth 40, run := e.run.map fun k => { k with nits := some (e.nit, target, e.lit) } }

/-- The decision of a LOOP bundle; `ask`: a kernel-level request is met here. -/
def loopAct (e : KEngine) (k : KRun) (target : BitVec 12) (due : Nat) (ask : Bool) : KEngine :=
  let start := ask && k.nits.isNone && e.nit != 0
  let e1 := if start then drainStart e target else e
  match (if start then some (e.nit, target, e.lit) else k.nits) with
  | some d => if 1 < e1.nps.toNat then (nextPass e1 false).goto target due else e1.ends d.2.1
  | none => if 1 < e1.nps.toNat then (nextPass e1 (e1.nit != 0)).goto target due else e1.goto (k.kpc + 1) due

/-- The successors that the decision may take, which R308 checks. -/
def loopFaults (k : KRun) (e : KEngine) (target : BitVec 12) : List Cause :=
  k.outFault target.toNat ++ if 1 < e.nps.toNat ∨ k.nits.isSome then [] else k.outFault k.after

/-! ## The repeat prefix (R102, R351, R352) -/

/-- Issue `n` of the prefix: slot and accumulator numbers. -/
def RepRun.op (r : RepRun) (n : Nat) : MmaOp :=
  ⟨r.fa, r.fb, r.acc + if r.iacc then BitVec.ofNat 3 n else 0, r.oa + if r.ia then BitVec.ofNat 5 n else 0,
    r.ob + if r.ib then BitVec.ofNat 5 n else 0, r.za, r.zb⟩

def RepRun.active (r : RepRun) : List ClId := (List.finRange 8).filter fun c => r.on.getLsbD c.val

/-- The guard's outcome as a mask of clusters. -/
def onMask (e : KEngine) (g : Guard) : BitVec 8 :=
  BitVec.ofNat 8 (((e.active g).map fun c => 2 ^ c.val).sum)

/-- The prefix that a bundle starts, its first issue made at step `t`. -/
def repOf (e : KEngine) (k : KRun) (g : Guard) (x : MmaOp) (l n : BitVec 6) (ia ib iacc : Bool) : RepRun :=
  ⟨x.fa, x.fb, x.acc, x.oa, x.ob, x.za, x.zb, ia, ib, iacc, 1, n.toNat, e.stepNo + mmaSteps x.fa, k.kpc + 1, l.toNat,
    onMask e g⟩

/-- R102, R332, R352: every one of the issues is checked at the prefix bundle. -/
def repFaults (e : KEngine) (r : RepRun) (i : Nat) : List Cause :=
  let a := r.oa.toNat + if r.ia then i else 0
  let b := r.ob.toNat + if r.ib then i else 0
  let c := r.acc.toNat + if r.iacc then i else 0
  let x := r.op i
  if 31 < a ∨ 31 < b ∨ 5 < c ∨ e.absent x.acc then [cKernelRepRange]
  else
    faultIf (unclaimed e r.active x.oa || unclaimed e r.active x.ob) cKernelOpmUnclaimed
      ++ faultIf (e.chk && r.active.any fun cl =>
          e.pendsAfter cl (.acc c) (e.stepNo + i * mmaSteps r.fa + mmaLat r.fa)) cKernelStallShort

/-- The multiplier reissues on this step. -/
def repDue (e : KEngine) : Bool :=
  match e.rep with
  | some r => decide (r.k < r.n) && decide (r.due ≤ e.stepNo)
  | none => false

/-- The reissue of this step. -/
def reissueStage (e : KEngine) : Stage :=
  match e.rep with
  | some r => { mmaStage (r.op r.k) r.active e with faults := [], weight := 24 }
  | none => .none

/-- The prefix after a reissue; with an empty loop buffer it ends with the last one. -/
def repNext (e : KEngine) : KEngine :=
  { e with rep := e.rep.bind fun r =>
      if r.len = 0 ∧ r.n ≤ r.k + 1 then none else some { r with k := r.k + 1, due := r.due + mmaSteps r.fa } }

/-- The bundle at the kernel's position comes from the loop buffer. -/
def inBuffer (e : KEngine) : Bool :=
  match e.rep with
  | some r => decide (0 < r.len)
  | none => false

/-- A bundle is due on this step; during an empty loop buffer none is (R102). -/
def bundleDue (e : KEngine) (k : KRun) : Bool :=
  decide (k.due ≤ e.stepNo) && match e.rep with
    | some r => decide (0 < r.len)
    | none => true

/-- The final mma of the prefix issues before step `t`. -/
def RepRun.madeBefore (r : RepRun) (t : Nat) : Bool :=
  decide (r.n ≤ r.k) || decide (r.due + (r.n - 1 - r.k) * mmaSteps r.fa < t)

/-- The successor of a loop-buffer bundle, due on step `due`, and whether the buffer is left there: the pass has reached
b + L and the final mma has issued before the successor is due (R102). -/
def bufNext (k : KRun) (r : RepRun) (due : Nat) : Nat × Bool :=
  if k.kpc.toNat = r.first.toNat + (r.len - 1) then
    (if r.madeBefore due then (k.seqNext, true) else (r.first.toNat, false))
  else (k.seqNext, false)

/-- The loop buffer is left; reissues that come before the successor are still made. -/
def RepRun.leave (r : RepRun) : Option RepRun := if r.n ≤ r.k then none else some { r with len := 0 }

/-! ## Checks and effects of a CTL element -/

/-- What the element checks and reads at issue; `mx` is the mma of its bundle. -/
def ctlStage (e : KEngine) (k : KRun) (mx : Option (Guard × MmaOp)) : Option Instr → Stage
  | none => .fault (k.outFault k.seqNext)
  | some (.jmp t _) => .fault (k.outFault t.toNat)
  | some (.brp t p _) =>
    let taken := (List.finRange 8).any fun c => e.cl[c].pGet p.toNat
    (predRead (List.finRange 8) p.toNat).join (.fault (k.outFault (if taken then t.toNat else k.after)))
  | some (.call t _) => .fault (k.outFault t.toNat ++ faultIf (decide (4 ≤ e.rstack.length)) cKernelRstackOverflow)
  | some (.ret _) =>
    .fault (match e.rstack with
      | [] => [cKernelRstackUnderflow]
      | b :: _ => k.outFault b.toNat)
  | some (.loop t _) => .fault (loopFaults k e t)
  | some (.loopPoll t _) => .fault (loopFaults k e t)
  | some (.rep l n ia ib iacc _) =>
    match mx with
    | none => .fault [cKloadIllegalEncoding]
    | some (g, x) =>
      let r := repOf e k g x l n ia ib iacc
      .fault ((List.range n.toNat).flatMap (repFaults e r) ++ k.outFault k.after
        ++ k.outFault (k.kpc.toNat + l.toNat))
  | _ => .none

/-- What the element does once its bundle has issued (R95). -/
def ctlAct (e : KEngine) (k : KRun) (mx : Option (Guard × MmaOp)) (ask : Bool) (due : Nat) : Option Instr → KEngine
  | some (.jmp t _) => e.goto t due
  | some (.brp t p _) =>
    e.goto (if (List.finRange 8).any fun c => e.cl[c].pGet p.toNat then t else k.kpc + 1) due
  | some (.call t _) => { e.goto t due with rstack := BitVec.ofNat 13 k.after :: e.rstack }
  | some (.ret _) =>
    match e.rstack with
    | [] => e
    | b :: l => { e.goto (b.setWidth 12) due with rstack := l }
  | some (.kend _) => e.kends k.kpc
  | some (.loop t _) => loopAct e k t due false
  | some (.loopPoll t _) => loopAct e k t due ask
  | some (.rep l n ia ib iacc _) =>
    match mx with
    | none => e
    | some (g, x) =>
      let r := repOf e k g x l n ia ib iacc
      { e.goto (k.kpc + 1) due with rep := if r.len = 0 ∧ r.n ≤ 1 then none else some r }
  | _ => e.goto (k.kpc + 1) due

/-- One CTL element acts alone for the bundle at the kernel's position. -/
def ctlStep (i : Instr) (stall : BitVec 4) (s : State) : State :=
  let p := s.me
  match p.ke.run with
  | none => s
  | some k =>
    let mx := match p.bundleAt k.kpc with
      | .ok b => mmaIn b.ops
      | .error _ => none
    let st := ctlStage p.ke k mx (some i)
    match st.allFaults p.ke with
    | [] =>
      s.modKe s.cur fun e => ctlAct e k mx (drainAsked s s.cur) (e.stepNo + 1 + stall.toNat) (some i)
    | fs => kernelFault s s.cur (pickCause s.tick fs)

/-- R94, R291. -/
def execJmp (t : BitVec 12) (st : BitVec 4) (s : State) : Out := .next (ctlStep (.jmp t st) st s)
/-- R291, R292. -/
def execBrp (t : BitVec 12) (p st : BitVec 4) (s : State) : Out := .next (ctlStep (.brp t p st) st s)
/-- R291, R292. -/
def execCall (t : BitVec 12) (st : BitVec 4) (s : State) : Out := .next (ctlStep (.call t st) st s)
/-- R353. -/
def execRet (st : BitVec 4) (s : State) : Out := .next (ctlStep (.ret st) st s)
/-- R95, R292. -/
def execKend (st : BitVec 4) (s : State) : Out := .next (ctlStep (.kend st) st s)
/-- R100, R322. -/
def execLoop (t : BitVec 12) (st : BitVec 4) (s : State) : Out := .next (ctlStep (.loop t st) st s)
/-- R100, R101, R323. -/
def execLoopPoll (t : BitVec 12) (st : BitVec 4) (s : State) : Out := .next (ctlStep (.loopPoll t st) st s)
/-- R102, R351, R352. -/
def execRep (l n : BitVec 6) (ia ib iacc : Bool) (st : BitVec 4) (s : State) : Out :=
  .next (ctlStep (.rep l n ia ib iacc st) st s)

end Sys2Proof.Machine
end

