-- ==== Sys2Proof/Machine/Bundle.lean ====
section
/-! DEFINITION. One step of the kernel engine: what lands, the bundle that is due, the freezes, the power governor, the
repeat prefix (R107 to R110, R351, R373). -/

namespace Sys2Proof.Machine

open Sys2Proof

/-- What a slot op does at issue; the steps that are no slot ops do nothing in a bundle's slots. -/
def stageOf (i : Instr) (s : State) (sp : SpId) : Stage :=
  match i with
  | .aadd g ad a1 a2 l => stAadd g ad a1 a2 l (s.sp sp).ke
  | .aaddi g ad a1 imm => stAaddi g ad a1 imm (s.sp sp).ke
  | .asub g ad a1 a2 l => stAsub g ad a1 a2 l (s.sp sp).ke
  | .amul g ad a1 a2 l => stAmul g ad a1 a2 l (s.sp sp).ke
  | .ali g ad => stAli g ad (s.sp sp).ke
  | .acmp g cond pd a1 a2 l => stAcmp g cond pd a1 a2 l (s.sp sp).ke
  | .asel g ad ps a1 a2 l => stAsel g ad ps a1 a2 l (s.sp sp).ke
  | .ald g ad vn a2 l imm => stAld g ad vn a2 l imm (s.sp sp).ke
  | .atsr g pd tsr b => stAtsr g pd tsr b (s.sp sp).ke
  | .lcset g a2 l st => stLcset g a2 l st (s.sp sp).ke
  | .pmov g pd ps neg => stPmov g pd ps neg (s.sp sp).ke
  | .vadd g fmt rnd vd s1 s2 m => stVadd g fmt rnd vd s1 s2 m (s.sp sp).ke
  | .vsub g fmt rnd vd s1 s2 m => stVsub g fmt rnd vd s1 s2 m (s.sp sp).ke
  | .vmul g fmt rnd vd s1 s2 m => stVmul g fmt rnd vd s1 s2 m (s.sp sp).ke
  | .vfma g fmt rnd vd s1 s2 s3 m => stVfma g fmt rnd vd s1 s2 s3 m (s.sp sp).ke
  | .vmin g fmt _rnd vd s1 s2 m => stVmin g fmt _rnd vd s1 s2 m (s.sp sp).ke
  | .vmax g fmt _rnd vd s1 s2 m => stVmax g fmt _rnd vd s1 s2 m (s.sp sp).ke
  | .vexp2 g fmt _rnd vd s1 m => stVexp2 s.tick g fmt _rnd vd s1 m (s.sp sp).ke
  | .vlog2 g fmt _rnd vd s1 m => stVlog2 s.tick g fmt _rnd vd s1 m (s.sp sp).ke
  | .vrcp g fmt rnd vd s1 m => stVrcp g fmt rnd vd s1 m (s.sp sp).ke
  | .vrsq g fmt rnd vd s1 m => stVrsq g fmt rnd vd s1 m (s.sp sp).ke
  | .vcvt g fmt dst rnd vd s1 m => stVcvt g fmt dst rnd vd s1 m (s.sp sp).ke
  | .viadd g fmt sat vd s1 s2 m => stViadd g fmt sat vd s1 s2 m (s.sp sp).ke
  | .visub g fmt sat vd s1 s2 m => stVisub g fmt sat vd s1 s2 m (s.sp sp).ke
  | .vimul g fmt sat vd s1 s2 m => stVimul g fmt sat vd s1 s2 m (s.sp sp).ke
  | .vshl g fmt sat vd s1 s2 m => stVshl g fmt sat vd s1 s2 m (s.sp sp).ke
  | .vshr g fmt vd s1 s2 m => stVshr g fmt vd s1 s2 m (s.sp sp).ke
  | .vand g fmt vd s1 s2 m => stVand g fmt vd s1 s2 m (s.sp sp).ke
  | .vor g fmt vd s1 s2 m => stVor g fmt vd s1 s2 m (s.sp sp).ke
  | .vxor g fmt vd s1 s2 m => stVxor g fmt vd s1 s2 m (s.sp sp).ke
  | .vmov g fmt vd s1 m => stVmov g fmt vd s1 m (s.sp sp).ke
  | .vsel g fmt vd s1 s3 msk => stVsel g fmt vd s1 s3 msk (s.sp sp).ke
  | .vcmp g cond fmt md s1 s2 m => stVcmp g cond fmt md s1 s2 m (s.sp sp).ke
  | .vrotr g fmt vd s1 n m => stVrotr g fmt vd s1 n m (s.sp sp).ke
  | .vrotc g fmt vd s1 n m => stVrotc g fmt vd s1 n m (s.sp sp).ke
  | .vbcr g fmt vd s1 n m => stVbcr g fmt vd s1 n m (s.sp sp).ke
  | .vbcc g fmt vd s1 n m => stVbcc g fmt vd s1 n m (s.sp sp).ke
  | .vredr g op fmt vd s1 m => stVredr g op fmt vd s1 m (s.sp sp).ke
  | .vredc g op fmt vd s1 m => stVredc g op fmt vd s1 m (s.sp sp).ke
  | .vscanr g op fmt vd s1 m => stVscanr g op fmt vd s1 m (s.sp sp).ke
  | .viota g mode fmt vd m => stViota g mode fmt vd m (s.sp sp).ke
  | .vtopk g fmt vd s1 s2 s3 km1 mg => stVtopk g fmt vd s1 s2 s3 km1 mg (s.sp sp).ke
  | .vtrn g fmt vd s1 inv => stVtrn g fmt vd s1 inv (s.sp sp).ke
  | .vmask g op fmt md s1 s2 => stVmask g op fmt md s1 s2 (s.sp sp).ke
  | .mma g fa fb acc oa ob za zb => stMma g fa fb acc oa ob za zb (s.sp sp).ke
  | .mzero g acc => stMzero g acc (s.sp sp).ke
  | .mdrain g fmt acc v => stMdrain g fmt acc v (s.sp sp).ke
  | .mfill g oa v tr => stMfill g oa v tr (s.sp sp).ke
  | .oclaim g oa => stOclaim g oa (s.sp sp).ke
  | .orel g oa => stOrel g oa (s.sp sp).ke
  | .lend g bank => stLend g bank (s.sp sp).ke
  | .recallBank g bank => stRecall g bank (s.sp sp).ke
  | .unpk g fmt wide vd s1 z scl part => stUnpk g fmt wide vd s1 z scl part (s.sp sp).ke
  | .unpki g fmt wide vd s1 part => stUnpki g fmt wide vd s1 part (s.sp sp).ke
  | .pack g fmt wide vd s1 z scl part => stPack g fmt wide vd s1 z scl part (s.sp sp).ke
  | .packi g fmt wide vd s1 part => stPacki g fmt wide vd s1 part (s.sp sp).ke
  | .pscale g fmt wide s1 z part => stPscale g fmt wide s1 z part (s.sp sp).ke
  | .scld g zd vs row => stScld g zd vs row (s.sp sp).ke
  | .scset g zd => stScset g zd (s.sp sp).ke
  | .srd g vd q => stSrd g vd q s sp
  | .srdx g vd ar l => stSrdx g vd ar l s sp
  | .swr g s1 q => stSwr g s1 q s sp
  | .swrx g s1 ar l => stSwrx g s1 ar l s sp
  | .swra g s1 ar l => stSwra g s1 ar l s sp
  | .sfill g s1 q => stSfill g s1 q s sp
  | .xperm g vd s1 pat => stXperm g vd s1 pat (s.sp sp).ke
  | .xbcast g vd s1 c => stXbcast g vd s1 c (s.sp sp).ke
  | .xred g op fmt vd s1 => stXred g op fmt vd s1 (s.sp sp).ke
  | .xshift g vd s1 sh circ => stXshift g vd s1 sh circ (s.sp sp).ke
  | .xget g ad s1 c => stXget g ad s1 c (s.sp sp).ke
  | .xput g vd as bcast => stXput g vd as bcast (s.sp sp).ke
  | _ => .none

/-- Weights of the last 63 steps (R109). -/
def pushWeight (w : Nat) (l : List Nat) : List Nat := (w :: l).take 63

/-- The step ends: the counter advances, the window takes the step's weight. -/
def endStep (s : State) (sp : SpId) (w : Nat) : State :=
  s.modKe sp fun e => { e with stepNo := e.stepNo + 1, win := pushWeight w e.win }

/-- A frozen step: the counter stands (R107, R109). -/
def frozenStep (s : State) (sp : SpId) : State := s.modKe sp fun e => { e with win := pushWeight 0 e.win }

/-- R109, R110: a governor freeze step; no empty line holds the bundle. -/
def governorStep (s : State) (sp : SpId) : State :=
  (frozenStep (markFreeze s sp false) sp).modSp sp fun p =>
    { p with r := { p.r with freezes := p.r.freezes + 1 }, govTotal := p.govTotal + 1 }

/-- R109, R255: the limit in force. -/
def governorLimit (s : State) (sp : SpId) : Nat :=
  let l := (s.sp sp).pwrlim.toNat
  if (s.die (dieOf sp)).hot then max 64 (l / 2) else l

/-- The step begins: what is due lands, and the multiplier reads its parts. -/
def stepStart (s : State) (sp : SpId) : State := (landDue s sp).modKe sp readParts

/-- The bundle at the kernel's position with its reissue and its CTL element, as one stage. -/
def bundleStage (s : State) (sp : SpId) (k : KRun) (b : Bundle) : Stage :=
  let e := (s.sp sp).ke
  let ops := Stage.all (b.ops.map fun i => stageOf i s sp)
  let mx := b.ops.any fun i => (encodeMx i).isSome
  match e.rep with
  | some r =>
    let out := (bufNext k r (e.stepNo + 1 + b.stall.toNat)).1
    (Stage.fault (faultIf (mx || b.ctl.isSome) cKernelRepConflict ++ k.outFault out)).join
      (ops.join (if repDue e then reissueStage e else .none))
  | none => ops.join (ctlStage e k (mmaIn b.ops) b.ctl)

/-- The bundle has issued: the multiplier's reissue is counted and the successor is chosen. -/
def afterIssue (s : State) (sp : SpId) (k : KRun) (b : Bundle) : State :=
  s.modKe sp fun e =>
    let due := e.stepNo + 1 + b.stall.toNat
    match e.rep with
    | some r =>
      let n := bufNext k r due
      let e1 := if repDue e then repNext e else e
      { e1.goto (BitVec.ofNat 12 n.1) due with rep := if n.2 then e1.rep.bind RepRun.leave else e1.rep }
    | none => ctlAct e k (mmaIn b.ops) (drainAsked s sp) due b.ctl

/-- What becomes of the bundle that is due: R108, then the governor (R109). -/
inductive BundleFate where
  | verdict (v : Verdict)
  | governed
  deriving DecidableEq, Repr

def bundleFate (s : State) (sp : SpId) (st : Stage) : BundleFate :=
  match st.verdict s sp with
  | .go => if (s.sp sp).ke.win.sum + st.weight > governorLimit s sp then .governed else .verdict .go
  | v => .verdict v

/-- The step on which bundle `b` is due. The effects of its slots see the engine as it stood before the bundle, so the
CTL element reads it from `s`. -/
def issueBundle (s : State) (sp : SpId) (k : KRun) (b : Bundle) : State :=
  let st := bundleStage s sp k b
  match bundleFate s sp st with
  | .verdict (.fault c) => kernelFault s sp c
  | .verdict (.freeze l) => frozenStep (markFreeze s sp l) sp
  | .verdict .wait => endStep (markFreeze s sp false) sp 0
  | .governed => governorStep s sp
  | .verdict .go =>
    match st.commit s sp with
    | none => frozenStep (markFreeze s sp false) sp
    | some t => endStep (afterIssue t sp k b) sp st.weight

/-- The literal of the bundle under issue. -/
def setLit (s : State) (sp : SpId) (l : W32) : State := s.modKe sp fun e => { e with lit := l }

/-- A step of a kernel that issues bundles. -/
def issueTurn (s : State) (sp : SpId) (k : KRun) : State :=
  let p := s.sp sp
  if bundleDue p.ke k then
    match p.bundleAt k.kpc with
    | .error _ => kernelFault s sp cKloadIllegalEncoding
    | .ok b => issueBundle (setLit s sp b.lit) sp k b
  else if repDue p.ke then
    match (reissueStage p.ke).commit s sp with
    | none => s
    | some t => endStep (t.modKe sp repNext) sp 24
  else endStep s sp 0

/-- A drained kernel has nothing in flight left (R215). -/
def settleDrain (s : State) (sp : SpId) : State :=
  s.modKe sp fun e => { e with run := e.run.map fun k =>
    if k.phase = .ending ∧ k.nits.isSome ∧ e.infl.isEmpty then { k with phase := .drained } else k }

/-- One step of the SP's kernel engine. -/
def kernelTurn (s : State) (sp : SpId) : State :=
  let s1 := stepStart s sp
  match (s1.sp sp).ke.run with
  | none => endStep s1 sp 0
  | some k =>
    match k.phase with
    | .issuing => issueTurn s1 sp k
    | _ => settleDrain (endStep s1 sp 0) sp

/-- The multiplier reissues on a step on which no bundle is due (R351, R373). -/
def reissueAlone (s : State) (sp : SpId) : Bool :=
  let e := ((stepStart s sp).sp sp).ke
  match e.run with
  | some k => k.phase = .issuing && !bundleDue e k && repDue e
  | none => false

/-- The step is a governor freeze step (R109). -/
def governed (s : State) (sp : SpId) : Bool :=
  let s1 := stepStart s sp
  let p := s1.sp sp
  match p.ke.run with
  | some k =>
    k.phase = .issuing && bundleDue p.ke k
      && match p.bundleAt k.kpc with
        | .error _ => false
        | .ok b =>
          let s2 := setLit s1 sp b.lit
          bundleFate s2 sp (bundleStage s2 sp k b) = .governed
  | none => false

/-- R351: the kernel's step with a reissue alone. -/
def execRepReissue (sp : SpId) (s : State) : Out :=
  if reissueAlone s sp then .next (kernelTurn s sp) else .refused (.notEnabled "REP_REISSUE")

/-- R109, R110. -/
def execGovernorFreeze (sp : SpId) (s : State) : Out :=
  if governed s sp then .next (kernelTurn s sp) else .refused (.notEnabled "GOVERNOR_FREEZE")

end Sys2Proof.Machine
end

