-- ==== Sys2Proof/Machine/Sha.lean ====
section
/-! DEFINITION. SHA-384, the digest of R252 and R253. The manual names the function; what it computes is PRESUMED from FIPS
180-4 (log 113). -/

namespace Sys2Proof.Machine

open Sys2Proof

/-! ## Constants -/

/-- Bit by bit from bit `k - 1` down: the greatest number whose `e`-th power is at most `v`. -/
def intRoot (e v : Nat) : Nat → Nat → Nat
  | 0, r => r
  | k + 1, r => intRoot e v k (if (r + 2 ^ k) ^ e ≤ v then r + 2 ^ k else r)

/-- The first 64 bits of the fractional part of the `e`-th root of `p`. -/
def rootBits (e p : Nat) : W64 := BitVec.ofNat 64 (intRoot e (p * 2 ^ (64 * e)) 72 0)

/-- The primes below 410, which are 80. -/
def shaPrimes : List Nat := ((List.range 410).drop 2).filter fun n => (List.range n).all fun d => d < 2 || n % d != 0

/-- The constants of the rounds come from the cube roots of the primes, the start value from the square roots of the ninth
to the sixteenth. -/
def shaK : List W64 := shaPrimes.map (rootBits 3)
def shaInit : List W64 := ((shaPrimes.drop 8).take 8).map (rootBits 2)

/-! ## The compression of a block -/

/-- The working variables a to h. -/
structure ShaVars where
  a : W64
  b : W64
  c : W64
  d : W64
  e : W64
  f : W64
  g : W64
  h : W64
  deriving DecidableEq, Repr

def ShaVars.words (v : ShaVars) : List W64 := [v.a, v.b, v.c, v.d, v.e, v.f, v.g, v.h]

def shaVars (l : List W64) : ShaVars :=
  let w (i : Nat) : W64 := (l[i]?).getD 0
  ⟨w 0, w 1, w 2, w 3, w 4, w 5, w 6, w 7⟩

def shaSum0 (x : W64) : W64 := x.rotateRight 28 ^^^ x.rotateRight 34 ^^^ x.rotateRight 39
def shaSum1 (x : W64) : W64 := x.rotateRight 14 ^^^ x.rotateRight 18 ^^^ x.rotateRight 41
def shaSig0 (x : W64) : W64 := x.rotateRight 1 ^^^ x.rotateRight 8 ^^^ x >>> 7
def shaSig1 (x : W64) : W64 := x.rotateRight 19 ^^^ x.rotateRight 61 ^^^ x >>> 6

/-- The message schedule after `n` more words; the words stand newest first. -/
def shaSchedule : Nat → List W64 → List W64
  | 0, l => l
  | n + 1, l =>
    let w (i : Nat) : W64 := (l[i - 1]?).getD 0
    shaSchedule n ((shaSig1 (w 2) + w 7 + shaSig0 (w 15) + w 16) :: l)

def shaRound (v : ShaVars) (k w : W64) : ShaVars :=
  let t1 := v.h + shaSum1 v.e + ((v.e &&& v.f) ^^^ (~~~v.e &&& v.g)) + k + w
  let t2 := shaSum0 v.a + ((v.a &&& v.b) ^^^ (v.a &&& v.c) ^^^ (v.b &&& v.c))
  ⟨t1 + t2, v.a, v.b, v.c, v.d + t1, v.e, v.f, v.g⟩

/-- A number whose bytes stand most significant first. -/
def beNat (l : List Byte) : Nat := l.foldl (fun n b => n * 256 + b.toNat) 0
def beBytes (n v : Nat) : List Byte := (List.range n).map fun i => BitVec.ofNat 8 (v / 2 ^ (8 * (n - 1 - i)))

/-- One block of 128 bytes. -/
def shaBlock (h : List W64) (b : List Byte) : List W64 :=
  let m := (List.range 16).map fun i => BitVec.ofNat 64 (beNat ((b.drop (8 * i)).take 8))
  let w := (shaSchedule 64 m.reverse).reverse
  let v := (shaK.zip w).foldl (fun x kw => shaRound x kw.1 kw.2) (shaVars h)
  (h.zip v.words).map fun x => x.1 + x.2

/-! ## The digest -/

/-- The padding of a message of `n` bytes. -/
def shaPad (n : Nat) : List Byte :=
  0x80 :: (List.replicate ((128 - (n + 17) % 128) % 128) 0 ++ beBytes 16 (8 * n))

def shaBlocks : Nat → List W64 → List Byte → List W64
  | 0, h, _ => h
  | n + 1, h, d => shaBlocks n (shaBlock h (d.take 128)) (d.drop 128)

/-- The 48 bytes of the digest. -/
def sha384 (d : List Byte) : List Byte :=
  let p := d ++ shaPad d.length
  ((shaBlocks (p.length / 128) shaInit p).take 6).flatMap fun w => beBytes 8 w.toNat

end Sys2Proof.Machine
end

