-- ==== Sys2Proof/Machine/DevRegs.lean ====
section
/-! DEFINITION. The device registers (R13, R60, R71, R110, R172), and what the physical addresses of an Equinox core reach: HBM4 and
the device registers (R12). -/

namespace Sys2Proof.Machine

open Sys2Proof

/-! ## Writes -/

/-- A write of a device register within its width (R60, R71, R110, R172): 0 is stored as 1, PWRLIM as the nearer
bound. -/
def atLeastOne (v : W32) : W32 := if v = 0 then 1 else v
def clampPwrlim (v : W32) : W32 := if v < 64 then 64 else if 3136 < v then 3136 else v
def setDispage (s : State) (die : DieId) (v : W32) : State :=
  s.modDie die fun d => { d with dispage := atLeastOne (v &&& 0xF_FFFF) }
def setFetime (s : State) (die : DieId) (v : W32) : State :=
  s.modDie die fun d => { d with fetime := atLeastOne (v &&& 0xFF_FFFF) }
def setFabtime (s : State) (v : W32) : State := s.modDev fun d => { d with fabtime := atLeastOne (v &&& 0xFF_FFFF) }
def setPwrlim (s : State) (sp : SpId) (v : W32) : State :=
  s.modSp sp fun p => { p with pwrlim := clampPwrlim (v &&& 0xFFF) }

/-- R13: LOCK and LOCAL; while LOCK is 1 a write has no effect, and LOCAL takes no value above 64. -/
def setMemsplit (s : State) (v : W32) : State :=
  if bit s.dev.memsplit.toNat 7 then s
  else s.modDev fun d =>
    { d with memsplit := (if bits v.toNat 0 7 ≤ 64 then v &&& 0x7F else d.memsplit &&& 0x7F) ||| (v &&& 0x80) }

def setDevReg (s : State) (r : DevReg) (v : W32) : State :=
  match r with
  | .dispage die => setDispage s die v
  | .fetime die => setFetime s die v
  | .fabtime => setFabtime s v
  | .pwrlim sp => setPwrlim s sp v

def getDevReg (s : State) (r : DevReg) : W32 :=
  match r with
  | .dispage die => (s.die die).dispage
  | .fetime die => (s.die die).fetime
  | .fabtime => s.dev.fabtime
  | .pwrlim sp => (s.sp sp).pwrlim

/-! ## The addresses of an Equinox core (R12; log 93) -/

/-- The addresses of the device registers. -/
def devRegBase : Nat := 0x3000_0000_0000
def devRegTop : Nat := 0x4000_0000_0000

/-- Whether `n` bytes at `a` lie in HBM4 or among the device registers; everything else is unbacked. -/
def backed (a n : Nat) : Bool := decide (a + n ≤ hbmTop) || (decide (devRegBase ≤ a) && decide (a + n ≤ devRegTop))

/-- FREE VALUE (log 93). What a load reads of the device register at an address: which one stands there is the implementation's, and
one that the manual does not describe reads a free value. -/
def devRead (s : State) (a : Nat) : W64 :=
  match Config.devRegAt a with
  | .memsplit => s.dev.memsplit.setWidth 64
  | .reg r => (getDevReg s r).setWidth 64
  | .other => Config.freeWord s.tick 6901

/-- A store to the device register at an address, under that register's own rule. -/
def devStoreReg (s : State) (a : Nat) (v : W64) : State :=
  match Config.devRegAt a with
  | .memsplit => setMemsplit s (v.setWidth 32)
  | .reg r => setDevReg s r (v.setWidth 32)
  | .other => s

/-- A core reads `n` bytes. -/
def coreRead (s : State) (a n : Nat) : W64 :=
  if a + n ≤ hbmTop then BitVec.ofNat 64 (memNat s.mem a n) else BitVec.ofNat 64 ((devRead s a).toNat % 2 ^ (8 * n))

/-- A core writes the low `n` bytes of `v`. -/
def coreWrite (s : State) (a n : Nat) (v : W64) : State :=
  if a + n ≤ hbmTop then s.physWrite a (leBytes n v.toNat) else devStoreReg s a (BitVec.ofNat 64 (v.toNat % 2 ^ (8 * n)))

end Sys2Proof.Machine
end

