-- ==== Sys2Proof/Machine/Rv.lean ====
section
/-! DEFINITION. The base set of the Equinox cores: RV64IMAC with Zicsr in machine mode (R222). The manual gives that set by
name, so what its instructions do is PRESUMED from the RISC-V architecture (log 6). A compressed word stands for the word
it abbreviates. Loads and stores name physical addresses (R12; log 93). -/

namespace Sys2Proof.Machine

open Sys2Proof

/-- An operation of OP, OP-IMM and their word forms. -/
inductive RvOp where
  | add | sub | sll | slt | sltu | xor | srl | sra | or | and
  | addw | subw | sllw | srlw | sraw
  | mul | mulh | mulhsu | mulhu | div | divu | rem | remu
  | mulw | divw | divuw | remw | remuw
  deriving DecidableEq, Repr

/-- The condition of a branch. -/
inductive RvCond where
  | eq | ne | lt | ge | ltu | geu
  deriving DecidableEq, Repr

/-- An operation of the A extension beside LR and SC. -/
inductive RvAmo where
  | swap | add | xor | and | or | min | max | minu | maxu
  deriving DecidableEq, Repr

/-- What a CSR instruction does with the old value. -/
inductive RvCsrOp where
  | write | set | clear
  deriving DecidableEq, Repr

/-- An instruction of the base set. Sizes are in bytes; `dbl` says that an operation of the A extension is of 64 bits. -/
inductive RvInstr where
  | lui (rd : BitVec 5) (imm : W64)
  | auipc (rd : BitVec 5) (imm : W64)
  | jal (rd : BitVec 5) (imm : W64)
  | jalr (rd rs1 : BitVec 5) (imm : W64)
  | branch (c : RvCond) (rs1 rs2 : BitVec 5) (imm : W64)
  | load (size : Nat) (signed : Bool) (rd rs1 : BitVec 5) (imm : W64)
  | store (size : Nat) (rs1 rs2 : BitVec 5) (imm : W64)
  | op (o : RvOp) (rd rs1 rs2 : BitVec 5)
  | opImm (o : RvOp) (rd rs1 : BitVec 5) (imm : W64)
  | fence | ecall | ebreak | mret | wfi
  | lr (dbl : Bool) (rd rs1 : BitVec 5)
  | sc (dbl : Bool) (rd rs1 rs2 : BitVec 5)
  | amo (o : RvAmo) (dbl : Bool) (rd rs1 rs2 : BitVec 5)
  | csr (o : RvCsrOp) (rd : BitVec 5) (src : W64 ⊕ BitVec 5) (writes : Bool) (num : BitVec 12)
  deriving DecidableEq, Repr

/-! ## Decoding -/

/-- A number of `w` bits, sign-extended. -/
def sxt (v w : Nat) : W64 :=
  if bit v (w - 1) then BitVec.ofNat 64 v - BitVec.ofNat 64 (2 ^ w) else BitVec.ofNat 64 v

def rvReg (w lo : Nat) : BitVec 5 := BitVec.ofNat 5 (bits w lo 5)

def rvImmI (w : Nat) : W64 := sxt (bits w 20 12) 12
def rvImmS (w : Nat) : W64 := sxt (bits w 7 5 + bits w 25 7 * 2 ^ 5) 12
def rvImmB (w : Nat) : W64 :=
  sxt (bits w 8 4 * 2 + bits w 25 6 * 2 ^ 5 + bits w 7 1 * 2 ^ 11 + bits w 31 1 * 2 ^ 12) 13
def rvImmU (w : Nat) : W64 := sxt (bits w 12 20 * 2 ^ 12) 32
def rvImmJ (w : Nat) : W64 :=
  sxt (bits w 21 10 * 2 + bits w 20 1 * 2 ^ 11 + bits w 12 8 * 2 ^ 12 + bits w 31 1 * 2 ^ 20) 21

def rvCond (f : Nat) : Option RvCond :=
  match f with
  | 0 => some .eq
  | 1 => some .ne
  | 4 => some .lt
  | 5 => some .ge
  | 6 => some .ltu
  | 7 => some .geu
  | _ => none

/-- OP by funct7 and funct3. -/
def rvOpOf (f7 f3 : Nat) : Option RvOp :=
  match f7, f3 with
  | 0x00, 0 => some .add
  | 0x20, 0 => some .sub
  | 0x00, 1 => some .sll
  | 0x00, 2 => some .slt
  | 0x00, 3 => some .sltu
  | 0x00, 4 => some .xor
  | 0x00, 5 => some .srl
  | 0x20, 5 => some .sra
  | 0x00, 6 => some .or
  | 0x00, 7 => some .and
  | 0x01, 0 => some .mul
  | 0x01, 1 => some .mulh
  | 0x01, 2 => some .mulhsu
  | 0x01, 3 => some .mulhu
  | 0x01, 4 => some .div
  | 0x01, 5 => some .divu
  | 0x01, 6 => some .rem
  | 0x01, 7 => some .remu
  | _, _ => none

/-- OP-32 by funct7 and funct3. -/
def rvOp32Of (f7 f3 : Nat) : Option RvOp :=
  match f7, f3 with
  | 0x00, 0 => some .addw
  | 0x20, 0 => some .subw
  | 0x00, 1 => some .sllw
  | 0x00, 5 => some .srlw
  | 0x20, 5 => some .sraw
  | 0x01, 0 => some .mulw
  | 0x01, 4 => some .divw
  | 0x01, 5 => some .divuw
  | 0x01, 6 => some .remw
  | 0x01, 7 => some .remuw
  | _, _ => none

def rvAmoOf (f5 : Nat) : Option RvAmo :=
  match f5 with
  | 0x01 => some .swap
  | 0x00 => some .add
  | 0x04 => some .xor
  | 0x0C => some .and
  | 0x08 => some .or
  | 0x10 => some .min
  | 0x14 => some .max
  | 0x18 => some .minu
  | 0x1C => some .maxu
  | _ => none

/-- OP-IMM. -/
def rvOpImm (w : Nat) : Option RvInstr :=
  let mk (o : RvOp) (v : W64) : Option RvInstr := some (.opImm o (rvReg w 7) (rvReg w 15) v)
  let sh : W64 := BitVec.ofNat 64 (bits w 20 6)
  match bits w 12 3 with
  | 0 => mk .add (rvImmI w)
  | 1 => if bits w 26 6 = 0 then mk .sll sh else none
  | 2 => mk .slt (rvImmI w)
  | 3 => mk .sltu (rvImmI w)
  | 4 => mk .xor (rvImmI w)
  | 5 => if bits w 26 6 = 0 then mk .srl sh else if bits w 26 6 = 0x10 then mk .sra sh else none
  | 6 => mk .or (rvImmI w)
  | _ => mk .and (rvImmI w)

/-- OP-IMM-32. -/
def rvOpImm32 (w : Nat) : Option RvInstr :=
  let mk (o : RvOp) (v : W64) : Option RvInstr := some (.opImm o (rvReg w 7) (rvReg w 15) v)
  let sh : W64 := BitVec.ofNat 64 (bits w 20 5)
  match bits w 12 3 with
  | 0 => mk .addw (rvImmI w)
  | 1 => if bits w 25 7 = 0 then mk .sllw sh else none
  | 5 => if bits w 25 7 = 0 then mk .srlw sh else if bits w 25 7 = 0x20 then mk .sraw sh else none
  | _ => none

/-- LOAD and STORE by funct3. -/
def rvLoad (w : Nat) : Option RvInstr :=
  let f := bits w 12 3
  if f = 7 then none else some (.load (2 ^ (f % 4)) (f < 4) (rvReg w 7) (rvReg w 15) (rvImmI w))

def rvStore (w : Nat) : Option RvInstr :=
  let f := bits w 12 3
  if 3 < f then none else some (.store (2 ^ f) (rvReg w 15) (rvReg w 20) (rvImmS w))

/-- AMO. -/
def rvAtomic (w : Nat) : Option RvInstr :=
  let f := bits w 12 3
  if f ≠ 2 ∧ f ≠ 3 then none
  else
    let dbl := f = 3
    match bits w 27 5 with
    | 2 => if bits w 20 5 = 0 then some (.lr dbl (rvReg w 7) (rvReg w 15)) else none
    | 3 => some (.sc dbl (rvReg w 7) (rvReg w 15) (rvReg w 20))
    | k => (rvAmoOf k).map fun o => .amo o dbl (rvReg w 7) (rvReg w 15) (rvReg w 20)

/-- SYSTEM: a set or clear with a zero source does not write the CSR. -/
def rvSystem (w : Nat) : Option RvInstr :=
  let n : BitVec 12 := BitVec.ofNat 12 (bits w 20 12)
  let src : W64 ⊕ BitVec 5 := if bit w 14 then .inl (BitVec.ofNat 64 (bits w 15 5)) else .inr (rvReg w 15)
  match bits w 12 2 with
  | 0 =>
    match w with
    | 0x0000_0073 => some .ecall
    | 0x0010_0073 => some .ebreak
    | 0x3020_0073 => some .mret
    | 0x1050_0073 => some .wfi
    | _ => none
  | 1 => some (.csr .write (rvReg w 7) src true n)
  | 2 => some (.csr .set (rvReg w 7) src (bits w 15 5 != 0) n)
  | _ => some (.csr .clear (rvReg w 7) src (bits w 15 5 != 0) n)

/-- A word of 32 bits of the base set. -/
def rvDecode32 (w : Nat) : Option RvInstr :=
  match bits w 2 5 with
  | 0x0D => some (.lui (rvReg w 7) (rvImmU w))
  | 0x05 => some (.auipc (rvReg w 7) (rvImmU w))
  | 0x1B => some (.jal (rvReg w 7) (rvImmJ w))
  | 0x19 => if bits w 12 3 = 0 then some (.jalr (rvReg w 7) (rvReg w 15) (rvImmI w)) else none
  | 0x18 => (rvCond (bits w 12 3)).map fun c => .branch c (rvReg w 15) (rvReg w 20) (rvImmB w)
  | 0x00 => rvLoad w
  | 0x08 => rvStore w
  | 0x04 => rvOpImm w
  | 0x06 => rvOpImm32 w
  | 0x0C => (rvOpOf (bits w 25 7) (bits w 12 3)).map fun o => .op o (rvReg w 7) (rvReg w 15) (rvReg w 20)
  | 0x0E => (rvOp32Of (bits w 25 7) (bits w 12 3)).map fun o => .op o (rvReg w 7) (rvReg w 15) (rvReg w 20)
  | 0x03 => if bits w 12 3 = 0 then some .fence else none
  | 0x0B => rvAtomic w
  | 0x1C => rvSystem w
  | _ => none

/-! ### Compressed words -/

/-- A register field of three bits names x8 to x15. -/
def rvCReg (w lo : Nat) : BitVec 5 := BitVec.ofNat 5 (8 + bits w lo 3)
def rvCImm6 (w : Nat) : Nat := bits w 2 5 + bits w 12 1 * 2 ^ 5

/-- Quadrant 0. -/
def rvC0 (w : Nat) : Option RvInstr :=
  let rd := rvCReg w 2
  let rs := rvCReg w 7
  let wo : W64 := BitVec.ofNat 64 (bits w 6 1 * 2 ^ 2 + bits w 10 3 * 2 ^ 3 + bits w 5 1 * 2 ^ 6)
  let d : W64 := BitVec.ofNat 64 (bits w 10 3 * 2 ^ 3 + bits w 5 2 * 2 ^ 6)
  match bits w 13 3 with
  | 0 =>
    let k := bits w 6 1 * 2 ^ 2 + bits w 5 1 * 2 ^ 3 + bits w 11 2 * 2 ^ 4 + bits w 7 4 * 2 ^ 6
    if k = 0 then none else some (.opImm .add rd 2 (BitVec.ofNat 64 k))
  | 2 => some (.load 4 true rd rs wo)
  | 3 => some (.load 8 true rd rs d)
  | 6 => some (.store 4 rs rd wo)
  | 7 => some (.store 8 rs rd d)
  | _ => none

/-- Quadrant 1, funct3 4. -/
def rvCArith (w : Nat) : Option RvInstr :=
  let rd := rvCReg w 7
  let rs := rvCReg w 2
  match bits w 10 2, bits w 12 1, bits w 5 2 with
  | 0, _, _ => some (.opImm .srl rd rd (BitVec.ofNat 64 (rvCImm6 w)))
  | 1, _, _ => some (.opImm .sra rd rd (BitVec.ofNat 64 (rvCImm6 w)))
  | 2, _, _ => some (.opImm .and rd rd (sxt (rvCImm6 w) 6))
  | _, 0, 0 => some (.op .sub rd rd rs)
  | _, 0, 1 => some (.op .xor rd rd rs)
  | _, 0, 2 => some (.op .or rd rd rs)
  | _, 0, _ => some (.op .and rd rd rs)
  | _, _, 0 => some (.op .subw rd rd rs)
  | _, _, 1 => some (.op .addw rd rd rs)
  | _, _, _ => none

def rvCImmJ (w : Nat) : W64 :=
  sxt (bits w 3 3 * 2 + bits w 11 1 * 2 ^ 4 + bits w 2 1 * 2 ^ 5 + bits w 7 1 * 2 ^ 6 + bits w 6 1 * 2 ^ 7
    + bits w 9 2 * 2 ^ 8 + bits w 8 1 * 2 ^ 10 + bits w 12 1 * 2 ^ 11) 12
def rvCImmB (w : Nat) : W64 :=
  sxt (bits w 3 2 * 2 + bits w 10 2 * 2 ^ 3 + bits w 2 1 * 2 ^ 5 + bits w 5 2 * 2 ^ 6 + bits w 12 1 * 2 ^ 8) 9

/-- Quadrant 1. -/
def rvC1 (w : Nat) : Option RvInstr :=
  let rd := rvReg w 7
  match bits w 13 3 with
  | 0 => some (.opImm .add rd rd (sxt (rvCImm6 w) 6))
  | 1 => if rd = 0 then none else some (.opImm .addw rd rd (sxt (rvCImm6 w) 6))
  | 2 => some (.opImm .add rd 0 (sxt (rvCImm6 w) 6))
  | 3 =>
    if rvCImm6 w = 0 then none
    else if rd = 2 then
      some (.opImm .add 2 2 (sxt (bits w 6 1 * 2 ^ 4 + bits w 2 1 * 2 ^ 5 + bits w 5 1 * 2 ^ 6 + bits w 3 2 * 2 ^ 7
        + bits w 12 1 * 2 ^ 9) 10))
    else some (.lui rd (sxt (rvCImm6 w * 2 ^ 12) 18))
  | 4 => rvCArith w
  | 5 => some (.jal 0 (rvCImmJ w))
  | 6 => some (.branch .eq (rvCReg w 7) 0 (rvCImmB w))
  | _ => some (.branch .ne (rvCReg w 7) 0 (rvCImmB w))

/-- Quadrant 2. -/
def rvC2 (w : Nat) : Option RvInstr :=
  let rd := rvReg w 7
  let rs := rvReg w 2
  match bits w 13 3 with
  | 0 => some (.opImm .sll rd rd (BitVec.ofNat 64 (rvCImm6 w)))
  | 2 =>
    if rd = 0 then none
    else some (.load 4 true rd 2 (BitVec.ofNat 64 (bits w 4 3 * 2 ^ 2 + bits w 12 1 * 2 ^ 5 + bits w 2 2 * 2 ^ 6)))
  | 3 =>
    if rd = 0 then none
    else some (.load 8 true rd 2 (BitVec.ofNat 64 (bits w 5 2 * 2 ^ 3 + bits w 12 1 * 2 ^ 5 + bits w 2 3 * 2 ^ 6)))
  | 4 =>
    if bit w 12 then
      if rs ≠ 0 then some (.op .add rd rd rs) else if rd = 0 then some .ebreak else some (.jalr 1 rd 0)
    else if rs ≠ 0 then some (.op .add rd 0 rs)
    else if rd = 0 then none else some (.jalr 0 rd 0)
  | 6 => some (.store 4 2 rs (BitVec.ofNat 64 (bits w 9 4 * 2 ^ 2 + bits w 7 2 * 2 ^ 6)))
  | 7 => some (.store 8 2 rs (BitVec.ofNat 64 (bits w 10 3 * 2 ^ 3 + bits w 7 3 * 2 ^ 6)))
  | _ => none

/-- The length in bytes of the instruction whose first bytes are `w`. -/
def rvLen (w : W32) : Nat := if w.toNat % 4 = 3 then 4 else 2

/-- The instruction itself: a compressed one is the low 16 bits. -/
def rvWord (w : W32) : W32 := if rvLen w = 4 then w else w &&& 0xFFFF

/-- The instruction of the base set that a word begins with. -/
def rvDecode (w : W32) : Option RvInstr :=
  match w.toNat % 4 with
  | 0 => rvC0 (w.toNat % 2 ^ 16)
  | 1 => rvC1 (w.toNat % 2 ^ 16)
  | 2 => rvC2 (w.toNat % 2 ^ 16)
  | _ => rvDecode32 w.toNat

/-! ## Arithmetic -/

def sxt32 (v : W64) : W64 := (v.setWidth 32 : W32).signExtend 64

/-- Signed division of RISC-V: by zero the quotient is all ones and the remainder the dividend; the most negative number
divided by -1 is itself, with remainder 0. -/
def rvDiv {n : Nat} (a b : BitVec n) : BitVec n := if b = 0 then BitVec.allOnes n else a.sdiv b
def rvRem {n : Nat} (a b : BitVec n) : BitVec n := if b = 0 then a else a.srem b
def rvDivu {n : Nat} (a b : BitVec n) : BitVec n := if b = 0 then BitVec.allOnes n else a.udiv b
def rvRemu {n : Nat} (a b : BitVec n) : BitVec n := if b = 0 then a else a.umod b

def lo32 (v : W64) : W32 := v.setWidth 32

def rvAlu (o : RvOp) (a b : W64) : W64 :=
  match o with
  | .add => a + b
  | .sub => a - b
  | .sll => a <<< (b.toNat % 64)
  | .slt => if a.slt b then 1 else 0
  | .sltu => if a.ult b then 1 else 0
  | .xor => a ^^^ b
  | .srl => a >>> (b.toNat % 64)
  | .sra => a.sshiftRight (b.toNat % 64)
  | .or => a ||| b
  | .and => a &&& b
  | .addw => sxt32 (a + b)
  | .subw => sxt32 (a - b)
  | .sllw => (lo32 a <<< (b.toNat % 32)).signExtend 64
  | .srlw => (lo32 a >>> (b.toNat % 32)).signExtend 64
  | .sraw => ((lo32 a).sshiftRight (b.toNat % 32)).signExtend 64
  | .mul => a * b
  | .mulh => BitVec.ofInt 64 (a.toInt * b.toInt / 2 ^ 64)
  | .mulhsu => BitVec.ofInt 64 (a.toInt * (b.toNat : Int) / 2 ^ 64)
  | .mulhu => BitVec.ofNat 64 (a.toNat * b.toNat / 2 ^ 64)
  | .div => rvDiv a b
  | .divu => rvDivu a b
  | .rem => rvRem a b
  | .remu => rvRemu a b
  | .mulw => sxt32 (a * b)
  | .divw => (rvDiv (lo32 a) (lo32 b)).signExtend 64
  | .divuw => (rvDivu (lo32 a) (lo32 b)).signExtend 64
  | .remw => (rvRem (lo32 a) (lo32 b)).signExtend 64
  | .remuw => (rvRemu (lo32 a) (lo32 b)).signExtend 64

def rvHolds (c : RvCond) (a b : W64) : Bool :=
  match c with
  | .eq => a == b
  | .ne => a != b
  | .lt => a.slt b
  | .ge => !a.slt b
  | .ltu => a.ult b
  | .geu => !a.ult b

/-- An atomic operation on values extended to 64 bits with their sign. -/
def rvAmo (o : RvAmo) (old v : W64) : W64 :=
  match o with
  | .swap => v
  | .add => old + v
  | .xor => old ^^^ v
  | .and => old &&& v
  | .or => old ||| v
  | .min => if old.slt v then old else v
  | .max => if old.slt v then v else old
  | .minu => if old.ult v then old else v
  | .maxu => if old.ult v then v else old

/-! ## Control and status registers -/

/-- misa: RV64 with I, M, A and C. -/
def rvMisa : W64 := 0x8000_0000_0000_1105

/-- mstatus: MIE, MPIE and MPP, which is always machine mode. -/
def Core.mstatus (c : Core) : W64 := (if c.mie then 8 else 0) ||| (if c.mpie then 0x80 else 0) ||| 0x1800

/-- A CSR that the core has; `none` for a number it lacks. The counter mcycle has no stated rate, so its value is free;
the hardware performance counters and mcountinhibit read 0. -/
def Core.csr (c : Core) (core : CoreId) (cycle : W64) (n : BitVec 12) : Option W64 :=
  match n.toNat with
  | 0x300 => some c.mstatus
  | 0x301 => some rvMisa
  | 0x304 => some c.ie
  | 0x305 => some c.mtvec
  | 0x320 => some 0
  | 0x340 => some c.mscratch
  | 0x341 => some c.mepc
  | 0x342 => some c.mcause
  | 0x343 => some c.mtval
  | 0x344 => some (if c.irq then 0x800 else 0)
  | 0xB00 => some cycle
  | 0xB02 => some c.instret
  | 0xF11 => some 0
  | 0xF12 => some 0
  | 0xF13 => some 0
  | 0xF14 => some (BitVec.ofNat 64 core.val)
  | 0xF15 => some 0
  | k => if (0x323 ≤ k ∧ k ≤ 0x33F) ∨ (0xB03 ≤ k ∧ k ≤ 0xB1F) then some 0 else none

/-- A write of a CSR: bits without a register behind them are discarded. -/
def Core.setCsr (c : Core) (n : BitVec 12) (v : W64) : Core :=
  match n.toNat with
  | 0x300 => { c with mie := v.getLsbD 3, mpie := v.getLsbD 7 }
  | 0x304 => { c with ie := v &&& 0x888 }
  | 0x305 => { c with mtvec := v &&& ~~~(2 : W64) }
  | 0x340 => { c with mscratch := v }
  | 0x341 => { c with mepc := v &&& ~~~(1 : W64) }
  | 0x342 => { c with mcause := v }
  | 0x343 => { c with mtval := v }
  | 0xB02 => { c with instret := v }
  | _ => c

/-- Numbers whose two top bits are 11 are read-only. -/
def csrReadOnly (n : BitVec 12) : Bool := decide (0xC00 ≤ n.toNat)

/-! ## Execution -/

def State.eqxMe (s : State) : Core := s.eqx s.core
def State.modCore (s : State) (f : Core → Core) : State := s.modEqx s.core f
def State.xreg (s : State) (i : BitVec 5) : W64 := s.eqxMe.get i
def State.eqxRetire (s : State) (d : BitVec 5) (v : W64) : State := s.modCore fun c => c.retireTo d v
/-- The core takes an exception. -/
def State.eqxTrap (s : State) (cause tval : W64) : State := s.modCore fun c => takeException c cause tval

/-- The instruction of `len` bytes is done. -/
def State.rvDone (s : State) (len : Nat) (d : BitVec 5) (v : W64) : State := s.modCore fun c => c.retireAs len d v
/-- The instruction is done and the core goes on at `pc`. -/
def State.rvJump (s : State) (len : Nat) (d : BitVec 5) (pc : W64) : State :=
  s.modCore fun c => { c.retireAs len d (c.pc + BitVec.ofNat 64 len) with pc := pc &&& ~~~(1 : W64) }

/-- What is wrong with an access: misaligned, or unbacked (R12; log 93). -/
def rvAccess (a n : Nat) (mis acc : W64) : Option W64 :=
  if a % n ≠ 0 then some mis else if backed a n then none else some acc

/-- A value of `n` bytes extended to 64 bits. -/
def rvExtend (signed : Bool) (n : Nat) (v : W64) : W64 := if signed then sxt (v.toNat % 2 ^ (8 * n)) (8 * n) else v

/-- The reservation that LR sets; any write to its bytes ends it. -/
def State.reserve (s : State) (a n : Nat) : State :=
  { s with resv := ⟨s.core, a, n⟩ :: s.resv.filter fun r => r.core != s.core }
def State.unreserve (s : State) : State := { s with resv := s.resv.filter fun r => r.core != s.core }

/-- One instruction of the base set, `len` bytes long; `w` is its word. A CSR that the core lacks, or a write of a
read-only one, is an illegal instruction. -/
def execRv (len : Nat) (w : W32) (i : RvInstr) (s : State) : State :=
  let c := s.eqxMe
  let g (r : BitVec 5) : W64 := c.get r
  match i with
  | .lui rd v => s.rvDone len rd v
  | .auipc rd v => s.rvDone len rd (c.pc + v)
  | .jal rd v => s.rvJump len rd (c.pc + v)
  | .jalr rd rs1 v => s.rvJump len rd (g rs1 + v)
  | .branch k a b v => if rvHolds k (g a) (g b) then s.rvJump len 0 (c.pc + v) else s.rvDone len 0 0
  | .load n sg rd rs1 v =>
    let a := g rs1 + v
    match rvAccess a.toNat n mcLoadMisaligned mcLoadAccess with
    | some k => s.eqxTrap k a
    | none => s.rvDone len rd (rvExtend sg n (coreRead s a.toNat n))
  | .store n rs1 rs2 v =>
    let a := g rs1 + v
    match rvAccess a.toNat n mcStoreMisaligned mcStoreAccess with
    | some k => s.eqxTrap k a
    | none => (coreWrite s a.toNat n (g rs2)).rvDone len 0 0
  | .op o rd a b => s.rvDone len rd (rvAlu o (g a) (g b))
  | .opImm o rd a v => s.rvDone len rd (rvAlu o (g a) v)
  | .fence => s.rvDone len 0 0
  | .ecall => s.eqxTrap 11 0
  | .ebreak => s.eqxTrap 3 c.pc
  | .mret => s.modCore fun x => { returnException x with instret := x.instret + 1 }
  | .wfi => s.rvDone len 0 0
  | .lr dbl rd rs1 =>
    let n := if dbl then 8 else 4
    match rvAccess (g rs1).toNat n mcLoadMisaligned mcLoadAccess with
    | some k => s.eqxTrap k (g rs1)
    | none => (s.reserve (g rs1).toNat n).rvDone len rd (rvExtend true n (coreRead s (g rs1).toNat n))
  | .sc dbl rd rs1 rs2 =>
    let n := if dbl then 8 else 4
    match rvAccess (g rs1).toNat n mcStoreMisaligned mcStoreAccess with
    | some k => s.eqxTrap k (g rs1)
    | none =>
      if s.resv.contains ⟨s.core, (g rs1).toNat, n⟩ then
        ((coreWrite s (g rs1).toNat n (g rs2)).unreserve).rvDone len rd 0
      else s.unreserve.rvDone len rd 1
  | .amo o dbl rd rs1 rs2 =>
    let n := if dbl then 8 else 4
    match rvAccess (g rs1).toNat n mcStoreMisaligned mcStoreAccess with
    | some k => s.eqxTrap k (g rs1)
    | none =>
      let old := rvExtend true n (coreRead s (g rs1).toNat n)
      let v := rvExtend true n (g rs2)
      (coreWrite s (g rs1).toNat n (rvAmo o old v)).rvDone len rd old
  | .csr o rd src wr n =>
    match c.csr s.core (Config.freeWord s.tick 6900) n with
    | none => s.eqxTrap mcIllegal (w.setWidth 64)
    | some old =>
      if wr && csrReadOnly n then s.eqxTrap mcIllegal (w.setWidth 64)
      else
        let v := match src with
          | .inl z => z
          | .inr r => g r
        let new := match o with
          | .write => v
          | .set => old ||| v
          | .clear => old &&& ~~~v
        s.modCore fun x => (if wr then x.retireAs len rd old |>.setCsr n new else x.retireAs len rd old)

end Sys2Proof.Machine
end

