-- ==== Sys2Proof/Machine/Records.lean ====
section
/-! DEFINITION. Launch records and their checks (R40, R41), acceptance (R42), and the
Deal descriptor (R184). -/

namespace Sys2Proof.Machine

open Sys2Proof

/-! ## The launch record -/

/-- The launch record in 128 bytes (R40). `resOk`: every reserved bit is 0. -/
def parseLRec (b : List Byte) : LRec :=
  let w0 := field b 0 8
  let w8 := field b 8 8
  let u64 (o : Nat) : W64 := BitVec.ofNat 64 (field b o 8)
  let u32 (o : Nat) : W32 := BitVec.ofNat 32 (field b o 4)
  { kind := BitVec.ofNat 2 w0, order := BitVec.ofNat 2 (bits w0 2 2), glog := BitVec.ofNat 3 (bits w0 4 3)
    prio := BitVec.ofNat 3 (bits w0 8 3), slkc := BitVec.ofNat 2 (bits w0 11 2), idem := bit w0 13, feinit := bit w0 14
    npred := BitVec.ofNat 3 (bits w0 15 3), nkim := BitVec.ofNat 3 (bits w0 18 3), early := BitVec.ofNat 4 (bits w0 21 4)
    x := BitVec.ofNat 16 w8, y := BitVec.ofNat 16 (w8 / 2 ^ 16), z := BitVec.ofNat 16 (w8 / 2 ^ 32)
    w := BitVec.ofNat 16 (w8 / 2 ^ 48), ntask := u32 8, grain := u32 16, launchId := u32 20, code := u64 24
    entry := u64 32, args := u64 40, tasks := u64 48, csig := u64 56, cval := u64 64, seq := u64 72
    pred := #v[u32 80, u32 84, u32 88, u32 92], kim := #v[u32 96, u32 100, u32 104, u32 108], srfb := u32 112
    resOk := bits w0 7 1 = 0 && bits w0 25 39 = 0 && (bits w0 0 2 != 1 || field b 12 4 = 0) && field b 116 4 = 0
      && field b 120 8 = 0 && (List.range 4).all fun i => bits (field b (96 + 4 * i) 4) 28 4 = 0 }

def LRec.gsize (r : LRec) : Nat := 2 ^ r.glog.toNat

/-- Image and first bundle of a KIM preload entry (R40). -/
def kimImage (e : W32) : Nat := e.toNat % 2 ^ 16
def kimBase (e : W32) : Nat := bits e.toNat 16 12

def CodeObj.section? (c : CodeObj) (k : SecKind) : Option Section := c.secs.find? fun x => x.kind = k

def codeOf (s : State) (ctx : CtxId) (h : W64) : Option CodeObj := (s.ctx ctx).codes.find? fun c => c.handle = h

/-- ENTRY lies inside the object's text, at an instruction (R40, R41). -/
def entryOk (c : CodeObj) (e : W64) : Bool :=
  e &&& 0xFF00_0000_0000_0007 = 0
    && ((c.section? .text).map fun t => decide (t.addr.toNat ≤ e.toNat) && decide (e.toNat + 8 ≤ t.addr.toNat + t.size)).getD
      false

/-- R41: LAUNCH_RECORD_BAD. -/
def lrecBad (s : State) (ctx : CtxId) (r : LRec) : Bool :=
  !r.resOk || decide (2 ≤ r.kind.toNat) || decide (5 ≤ r.glog.toNat) || decide (5 ≤ r.npred.toNat)
    || decide (5 ≤ r.nkim.toNat) || r.grain = 0 || r.launchId = 0
    || (if r.kind = 0 then
          r.x = 0 || r.y = 0 || r.z = 0 || r.w = 0 || decide (r.space > 0xFFFF_FFFF) || r.tasks != 0
        else r.ntask = 0 || decide (r.ntask.toNat > 16777216) || r.tasks.toNat % 64 != 0)
    || r.csig.toNat % 8 != 0 || r.srfb = 0 || decide (r.srfb.toNat > 0x0080_0000)
    || !((codeOf s ctx r.code).map fun c => entryOk c r.entry).getD false
    || (List.finRange 4).any fun i =>
        (decide (r.npred.toNat ≤ i.val) && (r.pred[i] != 0 || r.early.getLsbD i.val))
          || (decide (r.nkim.toNat ≤ i.val) && r.kim[i] != 0)

/-- The KIM preload entries of a record: first bundle, address of the image and bundle count (R40, R240). -/
def kimLoads (s : State) (ctx : CtxId) (r : LRec) : List (Option (Nat × Nat × Nat)) :=
  ((List.finRange 4).filter fun i => decide (i.val < r.nkim.toNat)).map fun i =>
    match codeOf s ctx r.code with
    | none => none
    | some c =>
      match c.section? .zkim, c.images[kimImage r.kim[i]]? with
      | some z, some (off, n) => some (kimBase r.kim[i], z.addr.toNat + off, n)
      | _, _ => none

def overlapAny : List (Nat × Nat) → Bool
  | [] => false
  | (a, n) :: l => (l.any fun x => decide (a < x.1 + x.2) && decide (x.1 < a + n)) || overlapAny l

/-- R41: LAUNCH_KIM_BAD. -/
def kimBad (s : State) (ctx : CtxId) (r : LRec) : Bool :=
  let l := kimLoads s ctx r
  let ok := l.filterMap id
  l.any Option.isNone || ok.any (fun x => decide (x.1 + x.2.2 > 4096)) || overlapAny (ok.map fun x => (x.1, x.2.2))

/-- R41, in its order: why the record is rejected. -/
def checkLRec (s : State) (ctx : CtxId) (r : LRec) : Option Cause :=
  if lrecBad s ctx r then some cLaunchRecordBad
  else if kimBad s ctx r then some cLaunchKimBad
  else if (liveLaunch s ctx r.launchId).isSome then some cLaunchIdBusy
  else none

/-- The bindings a dependent makes at acceptance (R42): live predecessors, with whether each is early-start. -/
def bindings (s : State) (ctx : CtxId) (r : LRec) : List (Nat × Bool) :=
  ((List.finRange 4).filter fun i => decide (i.val < r.npred.toNat)).filterMap fun i =>
    (liveLaunch s ctx r.pred[i]).map fun n => (n, r.early.getLsbD i.val)

/-- A record is accepted (R42); its acceptance is a progress event (R220). Its age counts from here until a task of it is
dispatched (R59; log 98). -/
def acceptLaunch (s : State) (ctx : CtxId) (r : LRec) (depth : Nat) (src : LSource) (parent : Option Nat)
    (pusher : Option (Nat × Nat)) : State :=
  let l : Launch :=
    { ctx := ctx, r := r, depth := depth, src := src, parent := parent, pusher := pusher, phase := .accepted, cause := 0
      binds := bindings s ctx r, tasks := [], order := 0, doneTiles := 0, badTask := false, trigTiles := 0
      lastDisp := s.time
      lastDie := (match src with
        | .pool d => d
        | .queue _ => 0)
      gone := false, stopped := false, wait := none, memo := [] }
  progress { s with launches := s.launches ++ [l] } ctx

/-! ## The Deal descriptor (R184) -/

def parseDesc (b : List Byte) : DealDesc :=
  let w0 := field b 0 8
  let u64 (o : Nat) : W64 := BitVec.ofNat 64 (field b o 8)
  let u32 (o : Nat) : W32 := BitVec.ofNat 32 (field b o 4)
  { t := BitVec.ofNat 24 w0, k := BitVec.ofNat 4 (bits w0 24 4), ufmt := bit w0 28, e := BitVec.ofNat 13 (bits w0 32 13)
    slkc := BitVec.ofNat 2 (bits w0 45 2), slkx := bit w0 47, slack := BitVec.ofNat 12 (bits w0 48 12), rowb := u32 8
    dcap := u32 12, rows := u64 16, sstr := u32 24, ostr := u32 28, choice := u64 32, emap := u64 40, counts := u64 48
    drops := u64 56, inv := u64 64, out := u64 72, dsig := u64 80, seq := u64 88
    resOk := bits w0 29 3 = 0 && bits w0 60 4 = 0 && (List.range 4).all fun i => field b (96 + 8 * i) 8 = 0 }

/-- R184: the descriptor is acceptable to deal or undeal; each ignores the fields the other uses. -/
def DealDesc.ok (d : DealDesc) (undeal : Bool) : Bool :=
  let row := d.rowb.toNat
  let strideOk (v : W32) : Bool := v.toNat % 64 = 0 && decide (row ≤ v.toNat)
  d.resOk && d.t != 0 && decide (1 ≤ d.k.toNat) && decide (d.k.toNat ≤ 8)
    && decide (1 ≤ d.e.toNat) && decide (d.e.toNat ≤ 4096)
    && decide (64 ≤ row) && decide (row ≤ 65536) && row % 64 = 0
    && d.choice.toNat % 4 = 0 && d.emap.toNat % 32 = 0 && d.inv.toNat % 4 = 0
    && d.dsig.toNat % 16 = 0 && d.dsig != 0 && decide (d.t.toNat * d.k.toNat ≤ 2 ^ 32 - 1)
    && (if undeal then d.out.toNat % 64 = 0 && strideOk d.ostr
        else d.rows.toNat % 64 = 0 && strideOk d.sstr && d.counts.toNat % 16 = 0 && d.drops.toNat % 16 = 0)

end Sys2Proof.Machine
end

