-- ==== Sys2Proof/Machine/Launches.lean ====
section
/-! DEFINITION. The dispatch of launches: SPs in service and free (R46, R48), task arrays (R53, R54), static shares and
ready queues (R46, R47), predecessors (R61), and what a walker hands out (R49, R50). -/

namespace Sys2Proof.Machine

open Sys2Proof

/-! ## Capacity (R46, R48, R246) -/

/-- The spare of a die is its SP 16. -/
def isSpare (i : SpId) : Bool := i.val % 17 == 16

/-- An enabled SP that is not retired; a spare counts once it has taken a retired SP's place. -/
def inService (s : State) (i : SpId) : Bool :=
  !(s.sp i).retired && (!isSpare i || s.dev.spareUsed[dieOf i])

def dieSps (d : DieId) : List SpId := (List.finRange 68).filter fun i => dieOf i = d

/-- An SP that holds no strand. -/
def spFree (s : State) (i : SpId) : Bool := inService s i && (s.sp i).run = .idle && (s.sp i).gang.isNone

def freeSps (s : State) (d : DieId) : List SpId := (dieSps d).filter (spFree s)

/-- C_d of R48 and F_d of R46 for gangs of `g` strands. -/
def capacity (s : State) (g : Nat) (d : DieId) : Nat := ((dieSps d).filter (inService s)).length / g
def freeGangs (s : State) (g : Nat) (d : DieId) : Nat := (freeSps s d).length / g

/-- R46, step 1: the weights of the four dies. -/
def dieWeights (s : State) (g : Nat) : List Nat :=
  let f := (List.finRange 4).map (freeGangs s g)
  if f.all (· == 0) then (List.finRange 4).map (capacity s g) else f

/-- R46, steps 2 and 3: the share of each die. -/
def shares (m : Nat) (w : List Nat) : List (Nat × Nat) :=
  let b (d : Nat) : Nat := m * (w.take d).sum / w.sum
  (List.range 4).map fun d => (b d, b (d + 1))

/-! ## Task arrays (R53, R54) -/

/-- Why a task array cannot be used, or cannot yet: a read of a REMOTE page that is still to be sent, or unanswered. -/
inductive TaskErr where
  | bad (i : Nat)
  | fault (c : Cause) (va : Nat)
  | ask (va n : Nat)
  | wait
  deriving DecidableEq, Repr

/-- The read of `n` bytes of a REMOTE page that a launch engine makes at `va`. -/
def engineAsk (lf : Leaf) (va n : Nat) : DealAsk :=
  let (acc, key, addr) := lf.remote va
  ⟨tREAD, acc, key, addr, n, none⟩

/-- Reads of a launch engine (R165): `memo` holds what REMOTE pages have answered; `fuel` bounds the pieces. -/
def engineReadFrom (s : State) (ctx : CtxId) (memo : List DealAsk) : Nat → Nat → Nat → Except TaskErr (List Byte)
  | 0, _, _ => .error .wait
  | fuel + 1, va, n =>
    if n = 0 then .ok []
    else
      let piece : Except TaskErr (List Byte) :=
        match translate s .none ctx va .read .device with
        | .error c => .error (.fault c va)
        | .ok lf =>
          let k := min n (lf.room va)
          if lf.kind = 1 then
            match (memo.find? fun u => { u with ans := none } = engineAsk lf va k).map DealAsk.ans with
            | none => .error (.ask va k)
            | some none => .error .wait
            | some (some (.err c)) => .error (.fault c va)
            | some (some (.data d)) => if d.isEmpty then .error .wait else .ok (d.take k)
          else if poisoned s.dev.poison (lf.pa va) k then .error (.fault cMediaError va)
          else .ok (s.physRead (lf.pa va) k)
      match piece with
      | .error e => .error e
      | .ok d =>
        match engineReadFrom s ctx memo fuel (va + d.length) (n - d.length) with
        | .error e => .error e
        | .ok l => .ok (d ++ l)

/-- Reads `n` bytes at `va` for a launch. -/
def engineRead (s : State) (l : Launch) (va n : Nat) : Except TaskErr (List Byte) :=
  engineReadFrom s l.ctx l.memo (n + 1) va n

/-- The launch engine sends a read; none when no tag is free, and a target that cannot be reached answers so. -/
def engineSend (s : State) (li : Nat) (l : Launch) (va n : Nat) : Option State :=
  match translate s .none l.ctx va .read .device with
  | .error _ => none
  | .ok lf =>
    let u := engineAsk lf va n
    let put (t : State) (a : Option Reply) : State :=
      t.modLaunch li fun x => { x with memo := x.memo ++ [{ u with ans := a }] }
    match sendReq s (.engineRead li) l.ctx (ssidEngine l.lastDie) tREAD 0 u.acc u.key u.addr n (l.slack s) false [] with
    | .ok _ t => some (put t none)
    | .unreachable => some (put s (some (.err cAccUnreachable)))
    | .wait => none

/-- The successor list of a task record with NSUCC = 0xFF. -/
def readSList (s : State) (l : Launch) (n i : Nat) (b : List Byte) : Except TaskErr (List Nat) :=
  let a := field b 16 8
  let k := field b 24 4
  if a % 4 ≠ 0 ∨ k = 0 ∨ k > n ∨ field b 28 4 ≠ 0 ∨ field b 32 8 ≠ 0 then .error (.bad i)
  else
    match engineRead s l a (4 * k) with
    | .error e => .error e
    | .ok d =>
      let l := (List.range k).map fun j => field d (4 * j) 4
      if l.any fun x => decide (n ≤ x) then .error (.bad i) else .ok l

/-- The successors of a record. -/
def readSucc (s : State) (l : Launch) (n i : Nat) (b : List Byte) : Except TaskErr (List Nat) :=
  let k := field b 13 1
  if k = 0xFF then readSList s l n i b
  else if 6 < k then .error (.bad i)
  else
    let l := (List.range 6).map fun j => field b (16 + 4 * j) 4
    if (l.take k).any (fun x => decide (n ≤ x)) || (l.drop k).any (· != 0) then .error (.bad i) else .ok (l.take k)

/-- The task record `i` in 64 bytes, checked (R54). -/
def parseTask (s : State) (l : Launch) (n i : Nat) (b : List Byte) : Except TaskErr Task :=
  if field b 12 1 ≠ 0 ∨ field b 14 2 ≠ 0 ∨ field b 56 8 ≠ 0 then .error (.bad i)
  else
    match readSucc s l n i b with
    | .error e => .error e
    | .ok q =>
      .ok { dep := BitVec.ofNat 32 (field b 8 4), status := .waiting, cause := 0, nsucc := BitVec.ofNat 8 (field b 13 1)
            succ := q, x := BitVec.ofNat 16 (field b 0 2), y := BitVec.ofNat 16 (field b 2 2)
            z := BitVec.ofNat 16 (field b 4 2), w := BitVec.ofNat 16 (field b 6 2), args := BitVec.ofNat 64 (field b 40 8)
            trig := false }

/-- The records from `i` on; `k` are left. -/
def readTasks (s : State) (l : Launch) (base n : Nat) : Nat → Nat → Except TaskErr (List Task)
  | 0, _ => .ok []
  | k + 1, i =>
    match engineRead s l (base + 64 * i) 64 with
    | .error e => .error e
    | .ok b =>
      match parseTask s l n i b with
      | .error e => .error e
      | .ok t =>
        match readTasks s l base n k (i + 1) with
        | .error e => .error e
        | .ok q => .ok (t :: q)

/-- CAUSE := TASK_RECORD_BAD and STATUS := FAILED in the record with the lowest offending index (R54). -/
def markTask (s : State) (l : Launch) (i : Nat) : State :=
  let a := l.r.tasks.toNat + 64 * i
  match engineRead s l a 64 with
  | .error _ => s
  | .ok b =>
    let w := field b 8 8
    enginePut s l (a + 8)
      (leBytes 8 (bits w 0 32 + 5 * 2 ^ 32 + bits w 40 8 * 2 ^ 40 + cTaskRecordBad.toNat * 2 ^ 48 + bits w 58 6 * 2 ^ 58))

/-! ## Predecessors (R61) -/

/-- A non-early predecessor has ended FAILED. -/
def predFailed (s : State) (l : Launch) : Bool :=
  l.binds.any fun b => !b.2 && ((s.launch? b.1).map fun p => decide (p.phase = .failed)).getD false

/-- A non-early predecessor is not DONE, or an early one is not dispatched. -/
def predWait (s : State) (l : Launch) : Bool :=
  l.binds.any fun b => ((s.launch? b.1).map fun p =>
    if b.2 then decide (p.phase = .accepted) else decide (p.phase ≠ .done)).getD false

/-! ## Dispatch (R298, R299) -/

/-- What dispatch of a launch comes to: the statuses of R298, or a pause for a page (R299) or for a read of a REMOTE page;
`new` says that something was asked for. -/
inductive Dispatched where
  | ok (s : State)
  | noWalker
  | predWait
  | predFailed (s : State)
  | rejected (c : Cause) (idx : Nat) (s : State)
  | pause (new : Bool) (s : State)

def freeWalker (d : Die) : Option (Fin 16) := (List.finRange 16).find? fun i => d.walkers[i] = .free

def setWalker (s : State) (d : DieId) (i : Fin 16) (w : Walker) : State :=
  s.modDie d fun x => { x with walkers := x.walkers.set i w }

/-- What a walker that takes a range of a launch of the context holds: of a context that is being pre-empted it is FROZEN at once
(R52; log 133). -/
def loadedWalker (s : State) (ctx : CtxId) (li lo hi : Nat) : Walker :=
  if (s.ctx ctx).preempt.isSome then .frozen li lo hi else .active li lo hi

/-- Whether a split grant of a launch's range is on its way. -/
def splitInFlight (s : State) (li : Nat) : Bool :=
  s.dev.grants.any fun g => match g.range with
    | some r => r.1 == li
    | none => false

/-- Captures the FROZEN walkers of a context whose grants have all been loaded (R52). -/
def captureOne (s : State) (ctx : CtxId) (die : DieId) (i : Fin 16) : State :=
  match (s.die die).walkers[i] with
  | .frozen li n e =>
    if ((s.launch? li).any fun l => decide (l.ctx = ctx)) && !splitInFlight s li then
      (setWalker s die i .free).modCtx ctx fun c => { c with saved := c.saved ++ [⟨li, n, e, i.val, die⟩] }
    else s
  | _ => s

def captureWalkers (s : State) (ctx : CtxId) : State :=
  (List.finRange 4).foldl (fun t d => (List.finRange 16).foldl (fun u i => captureOne u ctx d i) t) s

/-- Captures what may be captured in every context that is being pre-empted. -/
def captureAll (s : State) : State :=
  (List.finRange 64).foldl (fun t c => if (t.ctx c).preempt.isSome then captureWalkers t c else t) s

/-- Loads one walker for each non-empty share, or `none` when a die has none FREE (R46). -/
def loadShares (s : State) (ctx : CtxId) (li : Nat) : List (DieId × Nat × Nat) → Option State
  | [] => some s
  | (d, lo, hi) :: l =>
    if lo = hi then loadShares s ctx li l
    else
      match freeWalker (s.die d) with
      | none => none
      | some i => loadShares (setWalker s d i (loadedWalker s ctx li lo hi)) ctx li l

/-- R47: tasks become ready, dealt round-robin to the dies. -/
def dealReady (s : State) (li : Nat) (dies : List DieId) : List Nat → Nat → State
  | [], _ => s
  | i :: l, k => dealReady (readyTask s li i ((dies[k % dies.length]?).getD 0)) li dies l (k + 1)

/-- Packets on this chip for a read of `n` bytes at `va` by the launch engine; a read of a REMOTE page is sent by `engineSend`. -/
def engineBlocks (s : State) (l : Launch) (va n : Nat) : Nat :=
  match translate s .none l.ctx va .read .device with
  | .ok lf => if lf.kind = 1 then 0 else blocks va n
  | .error _ => 0

/-- Packets on this chip for the reads of task record `i` and of its successor list. -/
def recordBlocks (s : State) (l : Launch) (i : Nat) (t : Task) : Nat :=
  let a := l.r.tasks.toNat + 64 * i
  engineBlocks s l a 64 +
    if t.nsucc = 0xFF then
      match engineRead s l (a + 16) 8 with
      | .ok b => engineBlocks s l (leNat b) (4 * t.succ.length)
      | .error _ => 0
    else 0

/-- The launch engine's reads of a GRAPH launch's records, counted in its stream (R165; log 117). -/
def graphPackets (s : State) (l : Launch) (ts : List Task) : State :=
  s.chip l.ctx (ssidEngine l.lastDie) (l.slack s) ((ts.zipIdx.map fun t => recordBlocks s l t.2 t.1).foldl (· + ·) 0)

/-- The launch has been dispatched. -/
def started (s : State) (li : Nat) : State :=
  checkFinal (s.modLaunch li fun l => { l with phase := .running, wait := none, lastDisp := s.time }) li

def startGraph (s : State) (li : Nat) (l : Launch) (w : List Nat) : Dispatched :=
  match readTasks s l l.r.tasks.toNat l.r.ntask.toNat l.r.ntask.toNat 0 with
  | .error (.fault c va) =>
    if repairable s l.ctx va c then .pause (l.wait != some (BitVec.ofNat 64 va)) (launchAsk s li va)
    else .rejected c 0 (endFailed s li c)
  | .error .wait => .pause false s
  | .error (.ask va n) =>
    match engineSend s li l va n with
    | some t => .pause true t
    | none => .pause false s
  | .error (.bad i) => .rejected cTaskRecordBad i (endFailed (markTask s l i) li cTaskRecordBad)
  | .ok ts =>
    let s1 := (graphPackets s l ts).modLaunch li fun x =>
      { x with tasks := ts, phase := .running, wait := none, lastDisp := s.time, memo := [] }
    let dies := (List.finRange 4).filter fun d => (w[d.val]?).getD 0 != 0
    let zero := (ts.zipIdx.filter fun t => t.1.dep = 0).map Prod.snd
    .ok (checkFinal (dealReady s1 li dies zero 0) li)

/-- R298 from its second line on, for an accepted launch. -/
def dispatchLaunch (s : State) (li : Nat) : Dispatched :=
  match s.launch? li with
  | none => .noWalker
  | some l =>
    let g := l.r.gsize
    let w := dieWeights s g
    if predFailed s l then .predFailed (endFailed s li cLaunchPredFailed)
    else if predWait s l then .predWait
    else if w.all (· == 0) then .rejected cLaunchGangUnplaceable 0 (endFailed s li cLaunchGangUnplaceable)
    else if l.r.kind = 1 then startGraph s li l w
    else
      match loadShares s l.ctx li ((List.finRange 4).zip (shares l.r.space w)) with
      | none => .noWalker
      | some t => .ok (captureAll (started t li))

/-! ## Walkers (R49, R50) -/

/-- The walker on a die that holds a launch, its range and its launch. -/
structure Range where
  die    : DieId
  walker : Fin 16
  launch : Nat
  next   : Nat
  stop   : Nat
  deriving DecidableEq, Repr

def activeRanges (s : State) (d : DieId) : List Range :=
  (List.finRange 16).filterMap fun i =>
    match (s.die d).walkers[i] with
    | .active l n e => some ⟨d, i, l, n, e⟩
    | _ => none

/-- Take (R49): the tile handed out, if one remains, with the walker moved on. One that has handed out its last index is FREE at
once; one that holds only holes is FREE with its next take (log 132). -/
def takeTile (s : State) (r : Range) : Option (Nat × Tile) × State :=
  match s.launch? r.launch with
  | none => (none, setWalker s r.die r.walker .free)
  | some l =>
    match l.r.nextTile r.stop (r.stop - r.next) r.next with
    | none => (none, setWalker s r.die r.walker .free)
    | some (i, t) =>
      (some (i, t), setWalker s r.die r.walker (if i + 1 < r.stop then .active r.launch (i + 1) r.stop else .free))

/-- The condition of a split (R50). -/
def splittable (s : State) (r : Range) : Bool :=
  match s.launch? r.launch with
  | none => false
  | some l => decide (2 * l.r.grain.toNat ≤ r.stop - r.next)

/-- The middle of a range (R50). -/
def Range.mid (r : Range) : Nat := r.next + (r.stop - r.next + 1) / 2

end Sys2Proof.Machine
end

