-- ==== Sys2Proof/Machine/Sboard.lean ====
section
/-! DEFINITION. The stream-op scoreboard of an SP (R85 to R87): issuing an op, which op may start, completing a tag, and
undelivered copy failures (R361). -/

namespace Sys2Proof.Machine

open Sys2Proof

/-- A tag is pending. -/
def Streams.busy (x : Streams) (t : TagId) : Bool := x.tags[t].pending

/-- No tag of a mask is pending. -/
def Streams.clear (x : Streams) (m : W32) : Bool :=
  (List.finRange 32).all fun t => !(m.getLsbD t.val && x.busy t)

/-- The wait mask of an op without the bit of its own tag (R356). -/
def ownClear (m : W64) (t : TagId) : W32 := setBitAt (m.setWidth 32) t.val false

/-- The op is recorded and its tag becomes pending (R85, step 2). -/
def Streams.take (x : Streams) (t : TagId) : Streams :=
  { x with tags := x.tags.set t ⟨true, none⟩, num := x.num + 1 }

/-- The tag of an op completes, with the cause it carries, if any (R85, R361, R362). -/
def Streams.complete (x : Streams) (t : Option TagId) (c : Option (Nat × Cause)) : Streams :=
  match t with
  | none => x
  | some t => { x with tags := x.tags.set t ⟨false, c⟩ }

/-- Numbers of the copies in a channel, the running one first. -/
def Channel.copies (c : Channel) : List Nat :=
  (match c.run with
    | some r => [r.op.num]
    | none => []) ++ c.queue.map StreamOp.num

/-- Numbers of the copies in the channels that a mask names, those included whose failure is undelivered (R362). -/
def copiesIn (x : Streams) (mask : BitVec 16) : List Nat :=
  (List.finRange 16).flatMap fun i =>
    if mask.getLsbD i.val then x.chans[i].copies ++ x.chans[i].und.map Prod.fst else []

def Channel.idle (c : Channel) : Bool := c.queue.isEmpty && c.run.isNone

/-- Every channel that a mask names is idle. -/
def chansIdle (x : Streams) (mask : BitVec 16) : Bool :=
  (List.finRange 16).all fun i => !mask.getLsbD i.val || x.chans[i].idle

/-- The failure of op `n` has been delivered: it is cleared for every other route (R361). -/
def Streams.delivered (x : Streams) (n : Nat) : Streams :=
  { x with
    tags := x.tags.map fun t => if t.cause.map Prod.fst = some n then { t with cause := none } else t
    chans := x.chans.map fun c => { c with und := c.und.filter fun u => u.1 != n } }

/-- The undelivered failure of the lowest channel that a mask names, its earliest. -/
def undelivered (x : Streams) (mask : BitVec 16) : Option (Nat × Cause) :=
  ((List.finRange 16).filter fun i => mask.getLsbD i.val).findSome? fun i => x.chans[i].und.head?

/-- The cause that the lowest awaited tag carries (R382). -/
def tagCause (x : Streams) (m : W32) : Option (Nat × Cause) :=
  ((List.finRange 32).filter fun t => m.getLsbD t.val).findSome? fun t => x.tags[t].cause

/-- Delivers a copy's failure: a precise fault, fatal to the task (R198, R361). -/
def State.deliverCopy (s : State) (u : Nat × Cause) : State :=
  (s.modMe fun p => p.modStr fun x => x.delivered u.1).fatal u.2

/-- The KIM regions of `n` bundles from `a` (R87): first and last. -/
def regions (a n : Nat) : Nat × Nat := (a / 256, (a + n - 1) / 256)
def regionsMeet (a b : Nat × Nat) : Bool := decide (a.1 ≤ b.2) && decide (b.1 ≤ a.2)

/-- The KIM regions an op uses. -/
def StreamOp.regions (o : StreamOp) : Option (Nat × Nat) :=
  match o.body with
  | .kload kbase _ n => some (Machine.regions kbase.toNat n.toNat)
  | .krun entry _ blk => some (Machine.regions entry.toNat blk.extent.toNat)
  | _ => none

def meets (a b : StreamOp) : Bool :=
  match a.regions, b.regions with
  | some x, some y => regionsMeet x y
  | _, _ => false

/-- The running kernel's op. -/
def Sp.kernelOp (p : Sp) : Option StreamOp := p.ke.run.map KRun.op

/-- kload `o` waits for an earlier-issued krun that uses one of its regions (R87). -/
def kloadBlocked (p : Sp) (o : StreamOp) : Bool :=
  (p.kernelOp.toList ++ p.str.kq).any fun k => decide (k.num < o.num) && meets k o

/-- krun `o` waits for an earlier-issued kload into one of its regions (R87). -/
def krunBlocked (p : Sp) (o : StreamOp) : Bool :=
  ((p.str.kload.map Prod.fst).toList ++ p.str.kimq).any fun k => decide (k.num < o.num) && meets k o

/-- The head of a channel's queue may start (R85, R358). -/
def copyReady (x : Streams) (c : ChId) : Bool :=
  x.chans[c].run.isNone && ((x.chans[c].queue.head?).map fun o => x.clear o.wait).getD false

/-- The head of the KIM queue may start (R85, R87). -/
def kloadReady (p : Sp) : Bool :=
  p.str.kload.isNone && ((p.str.kimq.head?).map fun o => p.str.clear o.wait && !kloadBlocked p o).getD false

/-- The head of the kernel queue may start (R85, R87, R308). -/
def krunReady (p : Sp) : Bool :=
  p.ke.run.isNone && ((p.str.kq.head?).map fun o => p.str.clear o.wait && !krunBlocked p o).getD false

/-- An sfence's tag may complete (R362). -/
def sfenceReady (x : Streams) (o : StreamOp) : Bool :=
  match o.body with
  | .sfence js =>
    x.clear o.wait && !js.any fun n => x.chans.toList.any fun c => c.copies.contains n
  | _ => false

/-- Every tag is complete, every channel idle, no kernel and no load runs (R31, R383). -/
def Sp.quiet (p : Sp) : Bool :=
  p.str.tags.toList.all (fun t => !t.pending) && p.str.chans.toList.all Channel.idle && p.ke.run.isNone
    && p.str.kq.isEmpty && p.str.kimq.isEmpty && p.str.kload.isNone

/-- R31, R215: the kernel has drained at its poll point and nothing but its krun tag holds what is left. -/
def Sp.drainedQuiet (p : Sp) : Bool :=
  (match p.ke.run with
    | some k => k.phase = .drained
    | none => false)
    && p.str.chans.toList.all (fun c => c.run.isNone) && p.str.kload.isNone && !kloadReady p
    && (List.finRange 16).all (fun c => !copyReady p.str c) && !p.str.fences.any (sfenceReady p.str)

/-- The SP may be written back (R31). -/
def Sp.settled (p : Sp) : Bool := p.quiet || p.drainedQuiet

end Sys2Proof.Machine
end

