-- ==== Sys2Proof/Machine/ScpCtl.lean ====
section
/-! DEFINITION. The SCP's control instructions: traps, fence, ckpt, susp, tend, gbar, launch, trig, twait, deal and undeal
(svc stands in Svc.lean). -/

namespace Sys2Proof.Machine

open Sys2Proof

/-! ## Traps (R199, R380, R384) -/

/-- Takes a user trap at the instruction under execution (R199). -/
def State.trapUser (s : State) (c : Cause) : State :=
  let t := s.modMe fun p => { p with r := (userTrap p.r c).1, pend := .none }
  match (userTrap s.me.r c).2 with
  | none => t
  | some e => t.fatal e

/-- R380. -/
def execTrap (_code : BitVec 20) (s : State) : Out := .next (s.deliverFirst fun t => t.trapUser cTrapUser)

/-- R384. -/
def execTfence (s : State) : Out :=
  .next (s.deliverFirst fun t =>
    if arithTrap t.me.r.aflags t.me.r.afenable then t.trapUser cArithTrap else t.retire)

/-! ## fence (R147, R301) -/

/-- The stores issued so far stand before the reads of every later copy (R149, R301). -/
def State.fenceNow (s : State) : State := s.modMe fun p => { p with sto := { p.sto with fence := p.sto.seq } }

/-- The fence retires. -/
def State.fenced (s : State) : State := s.fenceNow.retire

/-- R301. -/
def execFence (order : BitVec 2) (scope : BitVec 3) (s : State) : Out :=
  .next (if WellFormed (.fence order scope) then
      if order.getLsbD 1 then s.release scope State.fenced
      else s.deliverFirst fun t => t.windowGate scope State.fenced
    else s.illegal)

/-! ## The gang of the strand -/

def State.myGang? (s : State) : Option Gang := s.me.gang.bind s.gang?
def State.mySeat (s : State) : Nat := s.me.id.seat.toNat
def State.mySeat? (s : State) : Option Seat := s.myGang?.bind fun g => g.seats[s.mySeat]?
/-- Changes the seat of the strand under execution; a strand of no gang has none. -/
def State.modMySeat (s : State) (f : Seat → Seat) : State :=
  match s.me.gang with
  | some g => s.modSeat g s.mySeat f
  | none => s
/-- The launch that the strand's task belongs to. -/
def State.myLaunch? (s : State) : Option Launch := s.myGang?.bind fun g => s.launch? g.launch

/-- A seat's strand is PARKED. -/
def seatParked (s : State) (q : Seat) : Bool :=
  match q.sp with
  | some sp => (s.sp sp).run = .parked
  | none => q.status = .parked

/-! ## ckpt (R206, R207, R293) -/

/-- A live-range table (R206). -/
structure LiveTable where
  norb   : Bool
  wmask  : BitVec 16
  chmask : BitVec 16
  smask  : W64
  ranges : List (Nat × Bool × Nat)
  deriving DecidableEq, Repr

def emptyTable : LiveTable := ⟨false, 0, 0, 0, []⟩

/-- The table at an offset of the live-range section of a launch's code object; each range is (F offset, FEMPTY,
length). -/
def liveTable (s : State) (ctx : CtxId) (code : W64) (off : BitVec 20) : LiveTable :=
  match (codeOf s ctx code).bind fun c => c.section? .zlive with
  | none => emptyTable
  | some z =>
    let a := z.addr.toNat + 8 * off.toNat
    match gRead s .none ctx .device a 16 with
    | .error _ => emptyTable
    | .ok b =>
      let w0 := leNat (b.take 8)
      let n := bits w0 8 8
      let rs := match gRead s .none ctx .device (a + 16) (8 * n) with
        | .error _ => []
        | .ok r => (List.range n).map fun j =>
            let e := field r (8 * j) 8
            (bits e 0 23, bit e 23, bits e 32 24)
      ⟨bit w0 0, BitVec.ofNat 16 (w0 / 2 ^ 16), BitVec.ofNat 16 (w0 / 2 ^ 32), BitVec.ofNat 64 (leNat (b.drop 8)), rs⟩

/-- The table that the ckpt under execution names. -/
def State.myTable (s : State) (off : BitVec 20) : LiveTable :=
  match s.myLaunch? with
  | some l => liveTable s l.ctx l.r.code off
  | none => emptyTable

/-- The bytes of a checkpoint image as this model lays them out (log 12): s0 to s63, W0 to W15, CHWP0 to CHWP15, AFLAGS,
SLK0 to SLK3, TRAPPC, TRAPCAUSE, the gbar count, CKPC, CKOFF, SMASK, WMASK. -/
def Shadow.bytes (x : Shadow) : List Byte :=
  (List.finRange 64).flatMap (fun i => leBytes 8 (if x.smask.getLsbD i.val then x.r.s[i].toNat else 0))
    ++ (List.finRange 16).flatMap (fun i =>
      if x.wmask.getLsbD i.val then leBytes 8 x.r.win[i].lo.toNat ++ leBytes 8 x.r.win[i].hi.toNat else leBytes 16 0)
    ++ (List.finRange 16).flatMap (fun i => leBytes 8 x.chans[i].chwp.toNat)
    ++ leBytes 8 x.r.aflags.toNat
    ++ (List.finRange 4).flatMap (fun i => leBytes 8 x.r.slk[i].toNat)
    ++ leBytes 8 x.r.trapPc.toNat ++ leBytes 8 x.r.trapCause.toNat ++ leBytes 8 x.cnt.toNat ++ leBytes 8 x.ckpc.toNat
    ++ leBytes 8 x.ckoff.toNat ++ leBytes 8 x.smask.toNat ++ leBytes 8 x.wmask.toNat

/-- The shadow taken at the ckpt under execution (R207, step 3). -/
def takeShadow (s : State) (t : LiveTable) (off : BitVec 20) : Shadow :=
  { r := s.me.r, smask := t.smask, wmask := t.wmask, chans := s.me.str.chans, cnt := (s.mySeat?.map Seat.cnt).getD 0
    ckpc := s.me.r.pc, ckoff := off }

/-- Steps 3 to 5 of R207. The packets of the image carry the device's own slack (R176; log 38). -/
def ckptTake (off : BitVec 20) (s : State) : State :=
  let t := s.myTable off
  let x := takeShadow s t off
  let s1 := s.modMySeat fun q => { q with image := some x, ckpc := x.ckpc, ckoff := off, noRb := t.norb }
  let s2 := match s.mySeat? with
    | some q => devPut (s1.chip s.myCtx (ssidScp s.cur) slackEqx (blocks q.img.toNat x.bytes.length)) s.myCtx q.img x.bytes
    | none => s1
  (progress s2 s.myCtx).retire

/-- R207, R293. -/
def execCkpt (off : BitVec 20) (s : State) : Out :=
  .next (if !chansIdle s.me.str (s.myTable off).chmask then s.waits
    else if reqPending s s.cur then s.deliverFirst fun t => stopStrand t t.cur (.ckpt off) t.me.r.nextPc
    else if !(weakTxns s s.cur).isEmpty then s.waits
    else s.drainWeak.deliverFirst (ckptTake off))

/-! ## susp (R379) -/

/-- R379: undelivered copy failures, then the release at device scope, then the strand stops. -/
def suspStop (s : State) : State :=
  s.deliverFirst fun t =>
    match undelivered t.me.str 0xFFFF with
    | some u => t.deliverCopy u
    | none => t.release 3 fun u => stopStrand u u.cur .susp u.me.r.nextPc

/-- R31, R379. -/
def execSusp (s : State) : Out :=
  .next (if s.me.settled then suspStop s else s.modMe fun p => { p with pend := .quiet })

/-! ## tend (R383) -/

/-- Some seat of the gang but this one has not ended. -/
def othersRun (s : State) : Bool :=
  match s.myGang? with
  | none => false
  | some g => g.seats.zipIdx.any fun q => q.2 != s.mySeat && !seatParked s q.1

/-- The seats of a gang that wait in gbar, resident or stopped there. -/
def gbarSeats (s : State) (g : Gang) : List Nat :=
  (g.seats.zipIdx.filter fun q => match q.1.sp with
    | some sp => (s.sp sp).pend = .gbar || (s.sp sp).run = .stopped .gbar
    | none => false).map Prod.snd

/-- R30, R302: seats that wait in gbar while another seat is PARKED fault, every one of them. -/
def gbarStuck (s : State) (gi : Nat) : State :=
  match s.gang? gi with
  | none => s
  | some g =>
    let ws := gbarSeats s g
    if !ws.isEmpty && g.seats.any (seatParked s) then failSeats s gi ws cGbarParkedSeat else s

/-- The strand's part of its task is over (R24, R383). -/
def tendEnd (s : State) : State :=
  let t := progress s s.myCtx
  match s.me.gang with
  | none => t.modMe fun p => { p with run := .halted, pend := .none }
  | some g =>
    if othersRun s then gbarStuck (restSave (t.modMe fun p => { p with run := .parked, pend := .none }) s.cur) g
    else taskDone t g

/-- R383. No tag is pending, so the writes of every kernel are the strand's own and the release waits for them too. -/
def execTend (s : State) : Out :=
  .next (if !s.me.quiet then s.waits
    else s.deliverFirst fun t =>
      match undelivered t.me.str 0xFFFF with
      | some u => t.deliverCopy u
      | none => (coverTags t t.cur (BitVec.allOnes 32)).release 5 tendEnd)

/-! ## gbar (R302, R303, R30) -/

/-- The barrier that a strand has arrived at is complete: the strand goes on after its gbar. One that had stopped there runs
again; one that has been resumed at the gbar, and has not re-executed it, has no need to (R302). -/
def passGbar (s : State) (sp : SpId) : State :=
  s.modSp sp fun p =>
    { p with
      pend := if p.pend = .gbar then .none else p.pend
      run := if p.run = .stopped .gbar then .running else p.run
      r := { p.r with pc := p.r.nextPc } }

/-- Every seat has arrived, and every one goes on. -/
def passAll (s : State) : List Seat → State
  | [] => s
  | q :: l =>
    match q.sp with
    | some sp => passAll (passGbar s sp) l
    | none => passAll s l

/-- The seat has released at gang scope and takes its part in the barrier. -/
def gbarArrive (s : State) : State :=
  match s.me.gang, s.myGang?, s.mySeat? with
  | some gi, some g, some q =>
    if q.cnt.toNat < g.gen.toNat then (s.modMySeat fun q => { q with cnt := q.cnt + 1 }).retire
    else
      let s1 := s.modMySeat fun q => { q with cnt := g.gen + 1 }
      let rest := g.seats.zipIdx.all fun x => x.2 == s.mySeat || x.1.cnt = g.gen + 1
      if rest then
        passAll ((s1.modMe fun p => { p with pend := .gbar }).modGang gi fun g => { g with gen := g.gen + 1 }) g.seats
      else if g.seats.any (seatParked s) then gbarStuck (s1.modMe fun p => { p with pend := .gbar }) gi
      else if reqPending s s.cur then stopStrand s1 s.cur .gbar s.me.r.pc
      else s1.modMe fun p => { p with pend := .gbar }
  | _, _, _ => s.retire

/-- R302. -/
def execGbar (s : State) : Out := .next (s.release 1 gbarArrive)

/-! ## launch (R310 to R312) -/

/-- The depth of the strand (R63): that of the launch its task belongs to. -/
def State.depth (s : State) : Nat := (s.myLaunch?.map Launch.depth).getD 0

/-- The capacity of a die's pool (R7). -/
def poolSize : Nat := 4096

/-- The status of a pushed record that is not accepted (R310). -/
def launchStatus (s : State) (r : LRec) : Option W64 :=
  if lrecBad s s.myCtx r || kimBad s s.myCtx r then some 3
  else if s.depth + 1 > 16 then some 2
  else if (liveLaunch s s.myCtx r.launchId).isSome then some 4
  else if poolSize ≤ (s.die (dieOf s.cur)).pool.length then some 1
  else none

/-- The push into the pool of the SP's die. -/
def pushPool (s : State) (r : LRec) : State :=
  let d := dieOf s.cur
  let n := s.launches.length
  (acceptLaunch s s.myCtx r (s.depth + 1) (.pool d) (s.myGang?.map Gang.launch)
    (s.me.gang.map fun g => (g, s.mySeat))).modDie d
    fun x => { x with pool := x.pool ++ [n] }

/-- What launch does with the record it has read. -/
def launchRec (d : SReg) (b : List Byte) (s : State) : State :=
  let r := parseLRec b
  match launchStatus s r with
  | some st => s.retireTo d st
  | none => s.release 3 fun t => (pushPool t r).retireTo d 0

/-- R310. -/
def execLaunch (d a : SReg) (s : State) : Out :=
  let va := (s.sreg a).toNat
  .next (if va % 128 ≠ 0 then s.retireTo d 3
    else s.memGate (some (va, 128)) fun t => (scpRead t 0 va 128).andThen (launchRec d))

/-! ## trig and twait (R62, R385, R386) -/

/-- R385. -/
def execTrig (s : State) : Out :=
  .next (if (s.mySeat?.map Seat.trig).getD false then s.retire
    else s.release 3 fun t => (progress (t.modMySeat fun q => { q with trig := true }) t.myCtx).retire)

/-- LAUNCH_PRED_FAILED, or 0 (R386). -/
def twaitResult (s : State) (ls : List Nat) : W64 :=
  if ls.any (isFailed s) then cLaunchPredFailed.setWidth 64 else 0

/-- The early-start predecessors to which the strand's launch is bound (R42). -/
def State.earlyPreds (s : State) : List Nat :=
  match s.myLaunch? with
  | some l => (l.binds.filter Prod.snd).map Prod.fst
  | none => []

/-- twait waits: it is a suspension point (R31, R386). -/
def twaitWait (s : State) (id : Option Nat) : State :=
  if reqPending s s.cur then s.deliverFirst fun t => stopStrand t t.cur (.twait id) t.me.r.pc
  else
    match id with
    | some n => s.modMe fun p => { p with pend := .launch n }
    | none => s.waits

/-- R386. -/
def execTwait (d : SReg) (s : State) : Out :=
  let ls := s.earlyPreds
  .next (if ls.all (isTriggered s) then s.retireTo d (twaitResult s ls) else twaitWait s none)

/-- The launch that twait.id waits for: the one it has begun to wait for, or the live launch of that ID. -/
def twaitTarget (s : State) (id : W32) : Option Nat :=
  match s.me.pend with
  | .launch n => some n
  | _ => if id = 0 then none else liveLaunch s s.myCtx id

def launchFinal (s : State) (n : Nat) : Bool :=
  match s.launch? n with
  | some l => l.phase = .done || l.phase = .failed
  | none => true

/-- R386. -/
def execTwaitId (d a : SReg) (s : State) : Out :=
  .next (match twaitTarget s ((s.sreg a).setWidth 32) with
    | none => s.retireTo d 0
    | some n => if launchFinal s n then s.retireTo d (twaitResult s [n]) else twaitWait s (some n))

/-! ## deal and undeal (R182, R297, R387) -/

/-- The slack that an operation keeps (R182). -/
def dealSlack (s : State) (d : DealDesc) : BitVec 12 := if d.slkx then d.slack else s.slack d.slkc

/-- What deal or undeal does with the descriptor it has read. -/
def dealDesc (undeal : Bool) (d : SReg) (b : List Byte) (s : State) : State :=
  let x := parseDesc b
  let die := dieOf s.cur
  if !x.ok undeal then (emitDeal s die s.myCtx cDealDescBad x.seq).retireTo d 2
  else if 16 ≤ ((s.die die).dealer.queue.filter fun o => !o.cancelled).length then s.retireTo d 1
  else
    s.release 3 fun t =>
      let o : DealOp := ⟨t.myCtx, t.myGang?.map Gang.launch, undeal, x, dealSlack t x, t.dev.dealNum, false⟩
      ((t.modDev fun v => { v with dealNum := v.dealNum + 1 }).modDie die fun y =>
        { y with dealer := { y.dealer with queue := y.dealer.queue ++ [o] } }).retireTo d 0

def dealAct (undeal : Bool) (d a : SReg) (s : State) : State :=
  let va := (s.sreg a).toNat
  if va % 128 ≠ 0 then s.retireTo d 2
  else s.memGate (some (va, 128)) fun t => (scpRead t 0 va 128).andThen (dealDesc undeal d)

/-- R297. -/
def execDeal (d a : SReg) (s : State) : Out := .next (dealAct false d a s)

/-- R387. -/
def execUndeal (d a : SReg) (s : State) : Out := .next (dealAct true d a s)

end Sys2Proof.Machine
end

