-- ==== Sys2Proof/Machine/Streams.lean ====
section
/-! DEFINITION. Stream operations once they start: copies (R82 to R84, R358), kload (R305), the start and end of a kernel
(R306, R308, R95, R106), sfence (R362) and the completion write of a launch (R58). -/

namespace Sys2Proof.Machine

open Sys2Proof

/-! ## Reads by a channel: pauses, never a trap (R83, R305, R425) -/

/-- What a read of G-space by a channel comes to. -/
inductive ChanGot where
  | data (d : List Byte) (s : State)
  | pause (p : Pend) (s : State)
  | fail (c : Cause)

/-- A fault that Equinox can repair pauses the unit: the page is asked for once, a stale translation is dropped. -/
def chanFault (s : State) (sp : SpId) (pend : Pend) (c : Cause) (va : Nat) : ChanGot :=
  let ctx := (s.sp sp).id.ctx
  if repairable s ctx va c then
    let w : Pend := .repair c (BitVec.ofNat 64 va)
    .pause w (if pend = w then s else askPage s ctx (BitVec.ofNat 64 va))
  else if staleFault s (.sp sp) ctx c va then .pause .none (refreshTlb s (.sp sp) ctx va)
  else .fail c

/-- Sends a request of a channel. -/
def chanAsk (r : Sent) (s : State) : ChanGot :=
  match r with
  | .ok tag t => .pause (.remote tag none []) t
  | .wait => .pause .none s
  | .unreachable => .fail cAccUnreachable

/-- Bytes of `n` at a physical address that come before the first poisoned word (R245). -/
def cleanLen (p : List Nat) (a n : Nat) : Nat :=
  (p.filter fun w => decide (64 * w < a + n) && decide (a < 64 * w + 64)).foldl (fun m w => min m (64 * w - a)) n

/-- Reads at most `n` bytes at `va`: the first that one access brings, in one 256-byte block (R161), before a poisoned
word. -/
def chanRead (s : State) (sp : SpId) (who : Issuer) (ssid : BitVec 16) (slack : BitVec 12) (pend : Pend) (va n : Nat) :
    ChanGot :=
  let ctx := (s.sp sp).id.ctx
  match translate s (.sp sp) ctx va .read (.copy false) with
  | .error c => chanFault s sp pend c va
  | .ok lf =>
    let s1 := fillTlb s (.sp sp) ctx lf
    if lf.kind = 1 then
      match pend with
      | .remote _ (some (.data d)) _ => .data d s1
      | .remote _ (some (.err c)) _ => .fail c
      | .remote _ none _ => .pause pend s1
      | _ =>
        let (acc, key, addr) := lf.remote va
        chanAsk (sendReq s1 who ctx ssid tREAD 0 acc key addr (min n (lf.room va)) slack false []) s1
    else
      let k := cleanLen s1.dev.poison (lf.pa va) (min n (256 - va % 256))
      if k = 0 then chanFault s1 sp pend cMediaError va else .data (s1.physRead (lf.pa va) k) (s1.chip ctx ssid slack 1)

/-- Reads exactly `n` bytes at `va`; `got` holds those that earlier packets brought, `fuel` bounds the packets. -/
def chanReadAll (sp : SpId) (who : Issuer) (ssid : BitVec 16) (slack : BitVec 12) (va n : Nat) :
    Nat → State → Pend → List Byte → ChanGot
  | 0, s, p, _ => .pause p s
  | fuel + 1, s, p, got =>
    if n ≤ got.length then .data got s
    else
      match chanRead s sp who ssid slack p (va + got.length) (n - got.length) with
      | .data d z => chanReadAll sp who ssid slack va n fuel z .none (got ++ d)
      | .pause (.remote t a _) z => .pause (.remote t a got) z
      | g => g

/-- Reads the 64 bytes at `va` (a template, a bundle). -/
def chanRead64 (s : State) (sp : SpId) (who : Issuer) (ssid : BitVec 16) (slack : BitVec 12) (pend : Pend) (va : Nat) :
    ChanGot :=
  chanReadAll sp who ssid slack va 64 65 s pend pend.sofar

/-! ## Copies -/

/-- The fields of a copy op. -/
def StreamOp.copyOf (o : StreamOp) : BitVec 16 × W32 × W64 × BitVec 16 :=
  match o.body with
  | .copy ti param tb _ ev => (ti, param, tb, ev)
  | _ => (0, 0, 0, 0)

def putRun (s : State) (sp : SpId) (ch : ChId) (r : CopyRun) : State :=
  s.modSp sp fun p => p.modStr fun x => x.modChan ch fun c => { c with run := some r }

/-- Wait for a line, since when it began (R70). -/
def linePend (s : State) (sp : SpId) (p : Pend) : Pend :=
  match p with
  | .line a b => .line a b
  | _ => .line s.time (feLimit s (dieOf sp))

/-- What a turn of a copy comes to: it goes on; a fault ends it at what is read next; a fault ends it at what is written
next, and what has been read is dropped. -/
inductive CopyStep where
  | moved (r : CopyRun) (s : State)
  | fail (c : Cause)
  | drop (c : Cause)

/-- The packet of a copy's access to the SRF of SP `t` (R165); the own SRF takes none. -/
def chipCopy (s : State) (sp : SpId) (ch : ChId) (r : CopyRun) (t : SpId) : State :=
  if t = sp then s else s.chip (s.sp sp).id.ctx (ssidChan sp ch) (copySlack r) 1

/-- Reads `n` bytes of one line at an F address. An address that the pattern generates in the remote-window range is a hole of
the copy, as its bases there are refused (log 122). -/
def copyReadF (s : State) (sp : SpId) (ch : ChId) (r : CopyRun) (a : W64) (n : Nat) : ChanGot :=
  match s.fDecode sp a.toNat with
  | .srf t off =>
    if (s.sp t).full off then .data ((s.sp t).fBytes off n) (chipCopy s sp ch r t) else .pause (linePend s sp r.pend) s
  | _ => .fail cFSpaceHole

/-- The line that an F address names. -/
def lineOf (s : State) (sp : SpId) (a : Nat) : Option (SpId × Nat) :=
  match s.fDecode sp a with
  | .srf t off => some (t, off / 128)
  | _ => none

/-- Whether `n` bytes from `a` touch a line. -/
def touches (s : State) (sp : SpId) (l : SpId × Nat) (a : W64) (n : Nat) : Bool :=
  (lineAddrs a n).any fun x => lineOf s sp x = some l

/-- Whether a byte from byte `o` of row `row` on, in loop order, touches a line; `f` gives each row's address. -/
def laterTouch (s : State) (sp : SpId) (t : Template) (f : Nat → W64) (row o : Nat) (l : SpId × Nat) : Bool :=
  (decide (o < t.rowBytes) && touches s sp l (f row + BitVec.ofNat 64 o) (t.rowBytes - o))
    || (List.range (t.rows - (row + 1))).any fun i => touches s sp l (f (row + 1 + i)) t.rowBytes

/-- The line becomes full or empty when the copy touches it no more (R69). -/
def lastTouch (s : State) (sp : SpId) (t : Template) (f : Nat → W64) (row o : Nat) (a : W64) (b : Bool) : State :=
  match lineOf s sp a.toNat with
  | some l => if laterTouch s sp t f row o l then s else s.modSp l.1 fun p => p.setFull (128 * l.2) b
  | none => s

def donePiece (off len : Nat) : CopyPkt := ⟨0, off, len, some (.data [])⟩

/-- The first `n` bytes that the copy holds are written or sent; `d` is their packet or piece. A wait for the page that they
were written to is over. -/
def CopyRun.step (r : CopyRun) (n : Nat) (d : List CopyPkt) : CopyRun :=
  { r with
    pos := r.pos + n, ahead := r.ahead.drop n, pkts := r.pkts ++ d
    pend := match r.pend with
      | .repair _ _ => .none
      | p => p }

/-- The bytes read are written up to the next boundary; a REMOTE page takes them in one packet up to it. -/
structure DestRoom where
  adr : Nat
  room : Nat
  whole : Bool

/-- Where the bytes for a destination address stand, for the units of R137, and how many one access can cover: a line of F, a
256-byte block of G (R161, R173). -/
def destRoom (s : State) (sp : SpId) (t : Template) (da left : Nat) : DestRoom :=
  if t.kind = 6 then ⟨da, left, false⟩
  else if t.writesF then ⟨da, min left (128 - da % 128), false⟩
  else
    match translate s (.sp sp) (s.sp sp).id.ctx da .write (.copy (t.kind == 4)) with
    | .ok lf =>
      if lf.kind = 1 then ⟨(lf.remote da).2.2, min left (lf.room da), true⟩ else ⟨da, min left (256 - da % 256), false⟩
    | .error _ => ⟨da, min left (256 - da % 256), false⟩

/-- How many of `n` bytes read are written next: all up to the boundary of `q`, or all that come; before that whole aligned 8-byte
units (R137), and of a packet nothing (R173). -/
def DestRoom.take (q : DestRoom) (n : Nat) (all : Bool) : Nat :=
  let w := min n q.room
  if all || w = q.room then w else if q.whole then 0 else w - (q.adr + w) % 8

/-- The adds of a SADD segment, each with its offset in loop order and its physical address (R82). -/
def addList (off pa : Nat) (d : List Byte) : List (Nat × Nat × List Byte) :=
  (List.range (d.length / 4)).map fun i => (off + 4 * i, pa + 4 * i, (d.drop (4 * i)).take 4)

/-- Writes the first `n` bytes that the copy holds to G-space. A SADD segment's adds go into flight. -/
def copyWriteG (s : State) (sp : SpId) (ch : ChId) (r : CopyRun) (t : Template) (da n : Nat) : CopyStep :=
  let ctx := (s.sp sp).id.ctx
  let d := r.ahead.take n
  let fault (c : Cause) (s : State) : CopyStep :=
    match chanFault s sp r.pend c da with
    | .pause p z => .moved { r with pend := p } z
    | .data _ z => .moved r z
    | .fail e => .drop e
  match translate s (.sp sp) ctx da .write (.copy (t.kind == 4)) with
  | .error c => fault c s
  | .ok lf =>
    let s1 := fillTlb s (.sp sp) ctx lf
    if lf.kind = 1 then
      let (acc, key, addr) := lf.remote da
      match sendReq s1 (.copy sp ch) ctx (ssidChan sp ch) tPWR 0 acc key addr n (copySlack r) false d with
      | .ok tag z => .moved (r.step n [⟨tag, r.pos, n, none⟩]) z
      | .wait => .moved r s1
      | .unreachable => .drop cAccUnreachable
    else if t.kind = 4 then
      let k := cleanLen s1.dev.poison (lf.pa da) n
      let l := addList r.pos (lf.pa da) (d.take k)
      if k = 0 then fault cMediaError s1
      else
        .moved { r.step k (l.map fun x => ⟨0, x.1, 4, none⟩) with adds := r.adds ++ l }
          (s1.chip ctx (ssidChan sp ch) (copySlack r) 1)
    else .moved (r.step n [donePiece r.pos n]) ((s1.chip ctx (ssidChan sp ch) (copySlack r) 1).physWrite (lf.pa da) d)

/-- Writes the first `n` bytes that the copy holds; they go to `da`, from byte `o` of row `row` on (R82). -/
def copyWrite (s : State) (sp : SpId) (ch : ChId) (r : CopyRun) (t : Template) (row o : Nat) (da : W64) (n : Nat) :
    CopyStep :=
  if t.kind = 6 then .moved { r.step n [] with net := r.net ++ r.ahead.take n } s
  else if t.writesF then
    match s.fDecode sp da.toNat with
    | .srf q off =>
      .moved (r.step n [donePiece r.pos n])
        (lastTouch ((chipCopy s sp ch r q).modSp q fun p => p.fWrite off (r.ahead.take n)) sp t (fun i => t.dst i 0) row (o + n) da true)
    | _ => .drop cFSpaceHole
  else copyWriteG s sp ch r t da.toNat n

/-- Reads further bytes of a row from its byte `o` on; `x` is the row's index list entry. -/
def copyRead (s : State) (sp : SpId) (ch : ChId) (r : CopyRun) (t : Template) (row o x : Nat) : ChanGot :=
  let sa := t.src r.op.copyOf.2.1 row x + BitVec.ofNat 64 o
  if t.writesF then
    chanRead s sp (.copy sp ch) (ssidChan sp ch) (copySlack r) r.pend sa.toNat (t.rowBytes - o)
  else copyReadF s sp ch r sa (min (t.rowBytes - o) (128 - sa.toNat % 128))

/-- A line of which a CONSUME copy has read the last byte it needs becomes empty (R69). -/
def consumed (s : State) (sp : SpId) (r : CopyRun) (t : Template) (row o x n : Nat) : State :=
  let f (i : Nat) : W64 := t.src r.op.copyOf.2.1 i x
  if t.consume && !t.writesF then lastTouch s sp t f row (o + n) (f row + BitVec.ofNat 64 o) false else s

/-- The next segment of a copy; `x` is the row's index list entry. Bytes are read until the destination's boundary is
reached, and written as soon as they make whole units there. -/
def copySegment (s : State) (sp : SpId) (ch : ChId) (r : CopyRun) (t : Template) (x : Nat) : CopyStep :=
  let row := r.pos / t.rowBytes
  let off := r.pos % t.rowBytes
  let da := t.dst row x + BitVec.ofNat 64 off
  let q := destRoom s sp t da.toNat (t.rowBytes - off)
  let put (z : State) (r1 : CopyRun) (all : Bool) : CopyStep :=
    let n := q.take r1.ahead.length all
    if n = 0 then .moved r1 z else copyWrite z sp ch r1 t row off da n
  if r.stop.isSome then put s r true
  else if r.ahead.length < q.room then
    let o := off + r.ahead.length
    match copyRead s sp ch r t row o x with
    | .data d z => put (consumed z sp r t row o x d.length) { r with pend := .none, ahead := r.ahead ++ d } false
    | .pause p z => put z { r with pend := p } false
    | .fail c => .fail c
  else put s r false

/-- A turn of a copy whose template has been read: the index list entry of a row is read once (R82). -/
def copyMove (s : State) (sp : SpId) (ch : ChId) (r : CopyRun) (t : Template) : CopyStep :=
  let row := r.pos / t.rowBytes
  match t.idxOf row with
  | none => copySegment s sp ch r t 0
  | some i =>
    if (r.ent.map Prod.fst) = some row then copySegment s sp ch r t ((r.ent.map Prod.snd).getD 0)
    else
      match copyReadF s sp ch r (BitVec.ofNat 64 (t.idx.toNat + 4 * i)) 4 with
      | .data d z => copySegment z sp ch { r with pend := .none, ent := some (row, leNat d) } t (leNat d)
      | .pause p z => .moved { r with pend := p } z
      | .fail c => .fail c

/-- The template is read at the head of the queue and checked (R80, R83, R358). -/
def copyTemplate (s : State) (sp : SpId) (ch : ChId) (r : CopyRun) : CopyStep :=
  let o := r.op.copyOf
  if !templateIn o.2.2.1 o.1 then .fail cCopyTemplateBad
  else
    match chanRead64 s sp (.copy sp ch) (ssidChan sp ch) r.op.slack r.pend (templateAddr o.2.2.1 o.1) with
    | .data d z =>
      let t := parseTemplate d
      .moved { r with
          t := some t, pend := .none
          stop := if templateOk z (z.sp sp).id.ctx t then none else some cCopyTemplateBad } z
    | .pause p z => .moved { r with pend := p } z
    | .fail c => .fail c

/-- The performed prefix of the packets, and the rest. -/
def settlePkts : List CopyPkt → Nat × List CopyPkt
  | [] => (0, [])
  | p :: l =>
    match p.ans with
    | some (.data _) =>
      let r := settlePkts l
      (p.len + r.1, r.2)
    | _ => (0, p :: l)

/-- The first failure among the answers, in loop order (log 141). -/
def pktError (l : List CopyPkt) : Option Cause :=
  l.findSome? fun p => match p.ans with
    | some (.err c) => some c
    | _ => none

/-- Answers are taken in: WP counts what is performed (R84), a refused packet ends the copy (R83). KEY_STALE and another failure:
the first that is taken in decides (R173; log 141). -/
def copySettle (s : State) (sp : SpId) (ch : ChId) : State :=
  s.modSp sp fun p => p.modStr fun x => x.modChan ch fun c =>
    match c.run with
    | none => c
    | some r =>
      let q := settlePkts r.pkts
      let bad := pktError q.2
      { c with
        wp := c.wp + BitVec.ofNat 48 q.1
        run := some { r with
          pkts := q.2, stop := if r.stop.isSome then r.stop else bad, ahead := if bad.isSome then [] else r.ahead } }

/-- One add of a SADD copy at the channel controller (R82, R134). -/
def saddOne (s : State) (sp : SpId) (ch : ChId) (r : CopyRun) (x : Nat × Nat × List Byte) : State :=
  putRun (addOne s x) sp ch { r with
    adds := r.adds.erase x
    pkts := r.pkts.map fun p => if p.off = x.1 then { p with ans := some (.data []) } else p }

/-- FREE VALUE (log 108). Which add in flight of a SADD copy is performed next, and whether one is before the copy moves
on: every order is allowed (R134). -/
def nextAdd (s : State) (r : CopyRun) : Option (Nat × Nat × List Byte) :=
  let last := r.stop.isSome || (match r.t with
    | some t => decide (t.bytes ≤ r.pos)
    | none => false)
  if last || Config.freeBit s.tick 6 then r.adds[(Config.freeWord s.tick 6000).toNat % r.adds.length]? else none

/-- Every element has been moved, or the copy has stopped and what it had read is written. -/
def CopyRun.moved (r : CopyRun) : Bool :=
  (r.stop.isSome && r.ahead.isEmpty) || (match r.t with
    | some t => decide (t.bytes ≤ r.pos)
    | none => false)

/-- The elements that a NET copy has gathered go to its peer as one RDMA WRITE, those before a stop too (R82, R83; log 16); with none
there is no message. -/
def copyNet (s : State) (r : CopyRun) (t : Template) : CopyStep :=
  if r.net.isEmpty then .moved { r with msg := .acked } s
  else .moved { r with msg := .sent } (s.ethSend (.write (t.qp.setWidth 14) (t.dst 0 0) r.net))

/-- What a turn does with the copy, if it has anything left to do. -/
def copyStep (s : State) (sp : SpId) (ch : ChId) (r : CopyRun) : Option CopyStep :=
  match r.t with
  | none => if r.stop.isSome then none else some (copyTemplate s sp ch r)
  | some t =>
    if !r.moved then some (copyMove s sp ch r t)
    else if t.kind = 6 ∧ r.msg = .gathering then some (copyNet s r t)
    else none

/-- The peer of a NET copy has acknowledged its message, or has not taken it: then the copy fails with COPY_NET_ERROR (R84). -/
def netAck (s : State) (sp : SpId) (ch : ChId) (ok : Bool) : State :=
  s.modSp sp fun p => p.modStr fun x => x.modChan ch fun c => { c with run := c.run.map fun r =>
    if r.msg = .sent then { r with msg := .acked, stop := if ok then r.stop else r.stop.or (some cCopyNetError) } else r }

/-- A fault ends the copy at what is read next: the whole elements that it holds are still written (R83). -/
def CopyRun.endAt (r : CopyRun) (c : Cause) : CopyRun :=
  let e := (r.t.map Template.eb).getD 1
  { r with stop := some c, pend := .none, ahead := r.ahead.take (r.ahead.length - (r.pos + r.ahead.length) % e) }

/-- One turn of a running copy. -/
def copyTurn (s : State) (sp : SpId) (ch : ChId) : State :=
  let s1 := copySettle s sp ch
  match ((s1.sp sp).str.chans[ch]).run with
  | none => s1
  | some r =>
    match nextAdd s1 r with
    | some x => copySettle (saddOne s1 sp ch r x) sp ch
    | none =>
      match copyStep s1 sp ch r with
      | none => s1
      | some (.moved r1 z) => copySettle (putRun z sp ch r1) sp ch
      | some (.fail c) => putRun s1 sp ch (r.endAt c)
      | some (.drop c) => putRun s1 sp ch { r with stop := some c, pend := .none, ahead := [] }

/-- The tags in the wait mask of an op that starts have been awaited (R144). -/
def awaited (s : State) (sp : SpId) (o : Option StreamOp) : State :=
  match o with
  | some o => coverTags s sp o.wait
  | none => s

/-- The head of a channel's queue starts (R358). -/
def copyBegin (s : State) (sp : SpId) (ch : ChId) : State :=
  s.modSp sp fun p => p.modStr fun x => x.modChan ch fun c =>
    match c.queue with
    | [] => c
    | o :: l => { c with queue := l, run := some ⟨o, none, 0, .none, [], [], .gathering, none, [], [], none⟩ }

/-- R358: the copy at the head of a channel starts, and its template is read. -/
def execCopyStart (sp : SpId) (ch : ChId) (s : State) : Out :=
  if copyReady (s.sp sp).str ch then
    .next (copyTurn (copyBegin (awaited s sp (s.sp sp).str.chans[ch].queue.head?) sp ch) sp ch)
  else .refused (.notEnabled "COPY_START")

/-- The message of a NET copy is acknowledged; another copy has none, nor one that failed before its template was checked. -/
def CopyRun.netOver (r : CopyRun) : Bool :=
  match r.t with
  | some t => t.kind != 6 || r.msg = .acked
  | none => true

/-- Every element has been moved or the copy has stopped, and no packet or message is unanswered and no add in flight. -/
def CopyRun.over (r : CopyRun) : Bool := r.moved && (r.pkts.all fun p => p.ans.isSome) && r.netOver

/-- A stale key part-way of a transfer ends a copy PARTIAL (R83, R173); one met by the template's read fails it (R84). -/
def CopyRun.cut (r : CopyRun) : Bool := r.t.isSome && r.stop = some cKeyStale

/-- Destination bytes that WP has not counted yet (R84); a copy with no pattern has none. -/
def CopyRun.left (r : CopyRun) : Nat :=
  match r.t with
  | none => 0
  | some t =>
    if r.stop = some cCopyTemplateBad then 0
    else if t.kind = 6 then t.bytes
    else t.bytes - (r.pos - (r.pkts.map CopyPkt.len).sum)

/-- The failure a copy ends with; a stale key part-way is no failure (R83). -/
def CopyRun.failure (r : CopyRun) : Option Cause := if r.cut then none else r.stop

/-- The channel and the tag at the end of a copy (R84, R85, R361). -/
def copyClose (x : Streams) (ch : ChId) (r : CopyRun) : Streams :=
  let fl := r.failure
  (x.modChan ch fun c =>
    { c with
      run := none, wp := c.wp + BitVec.ofNat 48 r.left, part := r.cut
      cause := fl.getD c.cause, err := c.err || fl.isSome
      und := c.und ++ (fl.map fun k => (r.op.num, k)).toList }).complete r.op.tag (fl.map fun k => (r.op.num, k))

/-- The event record of a copy with EVT = 1 (R431). -/
def copyEvent (s : State) (sp : SpId) (ch : ChId) (r : CopyRun) : State :=
  match r.t with
  | none => s
  | some t =>
    if t.evt then
      emitCopy s sp ch (s.sp sp).id.ctx (r.stop.getD 0)
        (BitVec.ofNat 64 (r.op.copyOf.2.2.2.toNat + r.op.copyOf.1.toNat * 2 ^ 16
          + if r.cut then 2 ^ 32 else 0))
    else s

def copyFinish (s : State) (sp : SpId) (ch : ChId) (r : CopyRun) : State :=
  let s1 := copyEvent s sp ch r
  let s2 := s1.modSp sp fun p => p.modStr fun x => copyClose x ch r
  if r.op.tag.isSome then progress s2 (s2.sp sp).id.ctx else s2

/-- R84, R85: a copy ends. -/
def execCopyEnd (sp : SpId) (ch : ChId) (s : State) : Out :=
  let s1 := copySettle s sp ch
  match ((s1.sp sp).str.chans[ch]).run with
  | some r => if r.over then .next (copyFinish s1 sp ch r) else .refused (.notEnabled "COPY_END")
  | none => .refused (.notEnabled "COPY_END")

/-! ## sfence (R362) -/

/-- The cause that an sfence's tag carries: the lowest channel's earliest undelivered failure among its copies. -/
def fenceCause (x : Streams) (js : List Nat) : Option (Nat × Cause) :=
  (List.finRange 16).findSome? fun c => x.chans[c].und.find? fun u => js.contains u.1

def fenceDone (x : Streams) (o : StreamOp) : Streams :=
  let js := match o.body with
    | .sfence l => l
    | _ => []
  ({ x with fences := x.fences.filter fun f => f.num != o.num } : Streams).complete o.tag (fenceCause x js)

/-- R362. -/
def execSfenceComplete (sp : SpId) (tag : TagId) (s : State) : Out :=
  let x := (s.sp sp).str
  match x.fences.find? fun o => o.tag = some tag with
  | some o =>
    if sfenceReady x o then .next ((coverTags s sp o.wait).modSp sp fun p => p.modStr fun y => fenceDone y o)
    else .refused (.notEnabled "SFENCE_COMPLETE")
  | none => .refused (.notEnabled "SFENCE_COMPLETE")

/-! ## kload (R305) -/

/-- R87: the head of the KIM queue starts. -/
def execKloadStart (sp : SpId) (s : State) : Out :=
  if kloadReady (s.sp sp) then
    .next ((awaited s sp (s.sp sp).str.kimq.head?).modSp sp fun p => p.modStr fun x =>
      match x.kimq with
      | [] => x
      | o :: l => { x with kimq := l, kload := some (o, 0), kpend := .none })
  else .refused (.notEnabled "KLOAD_START")

/-- The bundle whose fields are all 0 but NEXT = KEND (R305). -/
def kendBundle : BundleWord := (0x6 : BundleWord) <<< 508

def setKim (p : Sp) (a : Nat) (w : BundleWord) : Sp := { p with kim := setAt 0 p.kim a w }

/-- Writes the same bundle to `n` bundles of KIM. -/
def fillKim (p : Sp) (a : Nat) (w : BundleWord) : Nat → Sp
  | 0 => p
  | n + 1 => setKim (fillKim p a w n) (a + n) w

/-- A load that cannot be made: no part of the image stays, and the cause is fatal to the task (R305). -/
def kloadFail (s : State) (sp : SpId) (kbase : BitVec 12) (n : Nat) (c : Cause) : State :=
  failStrand (s.modSp sp fun p =>
    (fillKim p kbase.toNat kendBundle n).modStr fun x => { x with kload := none, kpend := .none }) sp c

/-- The stream of a load's packets: the strand's kload reads, or, for the reloads of a resumption, which carry no tag, the
front end of the die (R165). -/
def kloadStream (o : StreamOp) (sp : SpId) : BitVec 16 :=
  if o.tag.isSome then ssidKload sp else ssidFront (dieOf sp)

/-- The slack of a load's packets; those of the front end are the device's own (R176; log 38). -/
def kloadSlack (o : StreamOp) : BitVec 12 := if o.tag.isSome then o.slack else slackEqx

/-- One bundle of a running load: read, checked, relocated, written. -/
def kloadBundle (s : State) (sp : SpId) (o : StreamOp) (kbase : BitVec 12) (src : W64) (n i : Nat) : State :=
  match chanRead64 s sp (.kload sp) (kloadStream o sp) (kloadSlack o) (s.sp sp).str.kpend (src.toNat + 64 * i) with
  | .pause p z => z.modSp sp fun q => q.modStr fun x => { x with kpend := p }
  | .fail c => kloadFail s sp kbase n c
  | .data d z =>
    let w : BundleWord := BitVec.ofNat 512 (leNat d)
    if kloadOk n w then
      z.modSp sp fun q => (setKim q (kbase.toNat + i) (relocate kbase w)).modStr fun x =>
        { x with kload := some (o, i + 1), kpend := .none }
    else kloadFail z sp kbase n cKloadIllegalEncoding

/-- A turn of the running load. -/
def kloadTurn (s : State) (sp : SpId) : State :=
  match (s.sp sp).str.kload with
  | none => s
  | some (o, i) =>
    match o.body with
    | .kload kbase src n => if i < n.toNat then kloadBundle s sp o kbase src n.toNat i else s
    | _ => s

/-- R305, R33: the last bundle has been written. -/
def execKloadComplete (sp : SpId) (s : State) : Out :=
  match (s.sp sp).str.kload with
  | some (o, i) =>
    match o.body with
    | .kload kbase src n =>
      if i = n.toNat then
        let t := s.modSp sp fun p => p.modStr fun x =>
          ({ x with kload := none, kmap := x.kmap ++ [⟨src, kbase, n.toNat⟩] } : Streams).complete o.tag none
        .next (if o.tag.isSome then progress t (s.sp sp).id.ctx else t)
      else .refused (.notEnabled "KLOAD_COMPLETE")
    | _ => .refused (.notEnabled "KLOAD_COMPLETE")
  | none => .refused (.notEnabled "KLOAD_COMPLETE")

/-! ## Kernels -/

/-- A cluster at kernel entry (R36, R308). -/
def enterCluster (b : KBlock) (c : ClId) (k : KCluster) : KCluster :=
  { k with
    a := Vector.ofFn fun i => if h : i.val < 8 then b.args[i.val] else k.a[i]
    q := Vector.ofFn fun i =>
      if b.bind[i].valid then BitVec.ofNat 23 (b.bind[i].base.toNat + c.val * 0x1000) else k.q[i]
    kflags := 0, tsr := Vector.replicate 6 0, hold := Vector.replicate 10 0, opmSt := Vector.replicate 32 .free }

/-- The engine at kernel entry; the entry bundle issues on the next step. -/
def enterKernel (e : KEngine) (o : StreamOp) (entry : BitVec 12) (chk : Bool) (b : KBlock) : KEngine :=
  { e.mapCl (enterCluster b) with
    nit := 0, nps := 0, nst := 0, rot := 0, chk := chk, lent := false, rstack := [], bind := b.bind, rep := none
    run := some (⟨o, entry, b, entry, e.stepNo, .issuing, none, none⟩ : KRun) }

/-- R308. -/
def execKernelStart (sp : SpId) (s : State) : Out :=
  let p := s.sp sp
  match p.str.kq with
  | o :: l =>
    match o.body with
    | .krun entry chk b =>
      if krunReady p then
        .next ((coverTags s sp o.wait).modSp sp fun q => { (q.modStr fun x => { x with kq := l }) with ke := enterKernel q.ke o entry chk b })
      else .refused (.notEnabled "KERNEL_START")
    | _ => .refused (.notEnabled "KERNEL_START")
  | [] => .refused (.notEnabled "KERNEL_START")

/-- The KFLAGS of the clusters together (R106). -/
def allFlags (e : KEngine) : KF := orFlags (e.cl.toList.map KCluster.kflags)

/-- A kernel that has reached kend with nothing in flight. -/
def kernelOver (e : KEngine) : Option KRun :=
  match e.run with
  | some k => if k.phase = .ending ∧ k.nits = none ∧ e.infl.isEmpty then some k else none
  | none => none

/-- What kend discards (R92, R104, R292). -/
def leaveKernel (e : KEngine) : KEngine :=
  { e.mapCl fun _ k => { k with hold := Vector.replicate 10 0, opmSt := Vector.replicate 32 .free } with
    lent := false, rstack := [], rep := none, run := none, chk := false }

/-- R85, R95, R106: the kernel ends, its flags merge into AFLAGS and its tag completes. -/
def execKernelEnd (sp : SpId) (s : State) : Out :=
  match kernelOver (s.sp sp).ke with
  | some k =>
    .next (progress (s.modSp sp fun p =>
      { (p.modStr fun x => x.complete k.op.tag none) with
        ke := leaveKernel p.ke
        r := { p.r with aflags := mergeKflags p.r.aflags (allFlags p.ke) } }) (s.sp sp).id.ctx)
  | none => .refused (.notEnabled "KERNEL_END")

/-! ## Completion (R58) -/

/-- A DONE launch whose completion value is still to be written, and the write has not failed. -/
def completionDue (s : State) (li : Nat) : Option Launch :=
  match s.launch? li with
  | some l =>
    if l.phase = .done ∧ !l.gone ∧ !recordWaits s li ∧ !s.dev.txns.any (fun t => t.who = .completion li) then some l else none
  | none => none

/-- The packets of a completion write to a REMOTE page, one for each 256-byte block (R161); none when a tag is lacking. -/
def completionSend (li : Nat) (l : Launch) (lf : Leaf) : List (Nat × Nat) → List Byte → State → Option (State × Bool)
  | [], _, s => some (s, true)
  | (va, n) :: ps, d, s =>
    let (acc, key, addr) := lf.remote va
    match sendReq s (.completion li) l.ctx (ssidEngine l.lastDie) tNPWR 0 acc key addr n (l.slack s) false (d.take n) with
    | .ok _ t => completionSend li l lf ps (d.drop n) t
    | .wait => none
    | .unreachable => some (s, false)

/-- The bytes at `va` cut where a packet must end. -/
def Leaf.cut (lf : Leaf) (va n : Nat) : List (Nat × Nat) :=
  let k := min n (lf.room va)
  if k = n then [(va, n)] else [(va, k), (va + k, n - k)]

/-- CVAL is written to CSIG with a release at system scope; the stores of the tasks were released by their tends. -/
def completionPut (s : State) (li : Nat) (l : Launch) : State :=
  let va := l.r.csig.toNat
  let d := leBytes 8 l.r.cval.toNat
  match translate s .none l.ctx va .write .scp with
  | .error c => if repairable s l.ctx va c then launchAsk s li va else emitLaunch s li l.ctx c l.r.seq
  | .ok lf =>
    if lf.kind = 1 then
      match completionSend li l lf (lf.cut va 8) d s with
      | some (t, true) => t
      | some (_, false) => emitLaunch s li l.ctx cAccUnreachable l.r.seq
      | none => s
    else
      ((s.chip l.ctx (ssidEngine l.lastDie) (l.slack s) 1).physWrite (lf.pa va) d).modLaunch li fun x => { x with gone := true }

/-- R58. -/
def execCompletionWrite (li : Nat) (s : State) : Out :=
  match completionDue s li with
  | some l => .next (completionPut s li l)
  | none => .refused (.notEnabled "COMPLETION_WRITE")

end Sys2Proof.Machine
end

