-- ==== Sys2Proof/Machine/Gangs.lean ====
section
/-! DEFINITION. Gangs: formation (R28, R35, R36), save areas and write-back (R31, R32, R213, R216), rollback (R211, R212),
the checks before a resume (R27) and resumption (R33, R214, R217). -/

namespace Sys2Proof.Machine

open Sys2Proof

/-- Maps what is not mapped and writes (R428). -/
def devStore (s : State) (ctx : CtxId) (va : W64) (d : List Byte) : State :=
  devPut (mapDevRange s ctx va.toNat d.length) ctx va d

/-! ## KIM (R28, R33, R305) -/

/-- Writes `k` bundles of a preload image of `n` bundles. -/
def loadImage (s : State) (ctx : CtxId) (kbase addr n : Nat) : Nat → List (Nat × BundleWord) →
    Except Cause (List (Nat × BundleWord))
  | 0, m => .ok m
  | k + 1, m =>
    match loadImage s ctx kbase addr n k m with
    | .error c => .error c
    | .ok m1 =>
      match gRead s .none ctx .device (addr + 64 * k) 64 with
      | .error e => .error e.1
      | .ok d =>
        let w : BundleWord := BitVec.ofNat 512 (leNat d)
        if kloadOk n w then .ok (setAt 0 m1 (kbase + k) (relocate (BitVec.ofNat 12 kbase) w))
        else .error cKloadIllegalEncoding

/-- The preload images of a launch; every other bundle is 0 (R35). -/
def loadImages (s : State) (ctx : CtxId) : List (Option (Nat × Nat × Nat)) → Except Cause (List (Nat × BundleWord))
  | [] => .ok []
  | x :: l =>
    match loadImages s ctx l with
    | .error c => .error c
    | .ok m =>
      match x with
      | none => .error cLaunchKimBad
      | some (kbase, addr, n) => loadImage s ctx kbase addr n n m

/-! ## Formation (R28) -/

/-- A: SRFB rounded up to a multiple of 32 KiB (R22). -/
def LRec.alloc (r : LRec) : Nat := alignUp r.srfb.toNat 0x8000

/-- TTBASE at entry (R429): the .ztmpl section of the launch's code object. -/
def entryTtbase (s : State) (l : Launch) : W64 :=
  match (codeOf s l.ctx l.r.code).bind fun c => c.section? .ztmpl with
  | none => 0
  | some z => (z.addr &&& 0x00FF_FFFF_FFFF_0000) ||| BitVec.ofNat 64 ((z.size / 64 - 1) % 2 ^ 16)

/-- The SCP registers at entry (R35). -/
def entryRegs (s : State) (l : Launch) (g : Gang) (n : Nat) : ScpRegs :=
  let r : ScpRegs :=
    { ScpRegs.init with pc := l.r.entry, slk := (s.ctx l.ctx).slkDef, ttbase := entryTtbase s l }
  ((((((r.put 1 g.args).put 2 (g.x.setWidth 64)).put 3 (g.y.setWidth 64)).put 4 (g.z.setWidth 64)).put 5
    (g.w.setWidth 64)).put 6 (BitVec.ofNat 64 n)).put 7 (BitVec.ofNat 64 g.size)

/-- The clusters and the sequencer before the first kernel after release or resumption (R36). -/
def freshEngine (e : KEngine) : KEngine :=
  { e with
    cl := Vector.replicate 8 KCluster.init, nit := 0, nps := 0, nst := 0, rot := 0, chk := false, lent := false
    rstack := [], bind := Vector.replicate 8 KBind.init, run := none, infl := [], rep := none }

/-- An SP takes seat `n` of a gang (R28, R35). -/
def seatSp (s : State) (gi : Nat) (g : Gang) (l : Launch) (place : Placement) (kim : List (Nat × BundleWord)) (n : Nat)
    (p : Sp) : Sp :=
  ({ p with
    r := entryRegs s l g n
    id := ⟨BitVec.ofNat 4 n, BitVec.ofNat 5 g.size, g.x, g.y, g.z, g.w, l.r.launchId, g.ctx⟩
    run := .formed, pend := .none, gang := some gi, seatMap := place, sto := Stores.init, str := Streams.init
    alloc := l.r.alloc, kim := kim, ke := freshEngine p.ke } : Sp).setFullRange 0 (!l.r.feinit) (l.r.alloc / 128)

def placeSeats (s : State) (gi : Nat) (g : Gang) (l : Launch) (place : Placement) (kim : List (Nat × BundleWord)) :
    List (SpId × Nat) → State
  | [] => s
  | (sp, n) :: t =>
    ((placeSeats s gi g l place kim t).modSp sp (seatSp s gi g l place kim n)).modSeat gi n
      fun q => { q with sp := some sp }

/-- The front end's reads of the preload images, one for each bundle (R165; log 117). -/
def preloadPackets (s : State) (g : Gang) (l : LRec) : State :=
  s.chip g.ctx (ssidFront g.die) slackEqx
    (((kimLoads s g.ctx l).filterMap fun x => x.map fun y => y.2.2).foldl (· + ·) 0)

/-- The gang takes the SPs of a placement; an image that cannot be loaded fails its task (R33). -/
def placeGang (s : State) (gi : Nat) (die : DieId) (place : Placement) : State :=
  match s.gang? gi with
  | none => s
  | some g =>
    match s.launch? g.launch with
    | none => s
    | some l =>
      match loadImages s g.ctx (kimLoads s g.ctx l.r) with
      | .error c => failGang s gi 0 c
      | .ok kim =>
        (placeSeats (preloadPackets s { g with die := die } l.r) gi g l place kim place.zipIdx).modGang gi
          fun x => { x with die := die }

/-- Free SPs of the die, as many as the gang has seats, each once. -/
def placementOk (s : State) (die : DieId) (size : Nat) (place : Placement) : Bool :=
  place.length == size && place.all (fun i => decide (dieOf i = die) && spFree s i) && place.Nodup

/-- A seat of a new task: its record and its checkpoint image have their places in the device area (R24, R207). -/
def newSeat (l : Launch) (recAt img : W64) : Seat :=
  { sp := none, status := .new, pc := l.r.entry, cause := 0, rb := false, ckoff := 0, ckpc := l.r.entry, seq := 0
    recAt := recAt, save := 0, img := img, cnt := 0, trig := false, image := none, area := none, noRb := !l.r.idem
    waits := none, fva := 0, kpc := none }

def newSeats (s : State) (l : Launch) : Nat → State × List Seat
  | 0 => (s, [])
  | n + 1 =>
    let (s1, qs) := newSeats s l n
    let (s2, a) := devAlloc s1 l.ctx 256 64
    let (s3, b) := devAlloc s2 l.ctx 256 1024
    (s3, qs ++ [newSeat l a b])

/-- A NEW task: its strand records are created and its gang is formed (R24, R28, R49, R55). -/
def formGang (s : State) (die : DieId) (place : Placement) (li : Nat) (l : Launch) (tindex : Nat)
    (x y z w : BitVec 16) (args : W64) : State :=
  let gi := s.gangs.length
  let (s1, qs) := newSeats s l l.r.gsize
  let g : Gang :=
    { live := true, launch := li, ctx := l.ctx, die := die, tindex := BitVec.ofNat 32 tindex, x := x, y := y, z := z
      w := w, args := args, gen := 0, seats := qs, resume := false, saveAt := none, kept := false }
  let s2 := ({ s1 with gangs := s1.gangs ++ [g] } : State).modLaunch li fun k => { k with lastDisp := s.time, lastDie := die }
  let s3 := if l.r.kind = 1 then modTask s2 li tindex fun t => { t with status := .running } else s2
  placeGang (writeRecords s3 gi l.r.gsize) gi die place

/-! ## Save areas (R213) -/

/-- A section: its length, then its bytes. -/
def sect (b : List Byte) : List Byte := leBytes 8 b.length ++ b

/-- Bytes of an unstarted stream op (log 17). -/
def StreamOp.bytes (o : StreamOp) : List Byte :=
  let tag : Nat := match o.tag with
    | some t => t.val + 32
    | none => 0
  let body : List Byte := match o.body with
    | .copy ti param tb ch ev =>
      leBytes 8 (ti.toNat + ev.toNat * 2 ^ 16 + param.toNat * 2 ^ 32) ++ leBytes 8 tb.toNat ++ leBytes 8 ch.val
    | .kload kbase src count => leBytes 8 kbase.toNat ++ leBytes 8 src.toNat ++ leBytes 8 count.toNat
    | .krun entry chk b =>
      leBytes 8 (entry.toNat + (if chk then 2 ^ 12 else 0) + b.extent.toNat * 2 ^ 16)
        ++ b.args.toList.flatMap (fun a => leBytes 4 a.toNat)
        ++ b.bind.toList.flatMap fun q =>
          leBytes 8 (q.base.toNat + (if q.valid then 2 ^ 23 else 0) + q.lm1.toNat * 2 ^ 32)
    | .sfence js => js.flatMap (leBytes 8)
  leBytes 8 (o.num % 2 ^ 32 + tag * 2 ^ 32 + o.urg.toNat * 2 ^ 40 + o.slack.toNat * 2 ^ 48)
    ++ leBytes 8 o.wait.toNat ++ sect body

/-- Bytes of a cluster in the kernel section (log 17). -/
def KCluster.bytes (k : KCluster) : List Byte :=
  k.v.toList.flatMap (fun x => leBytes 4096 x.toNat) ++ k.acc.toList.flatMap (fun x => leBytes 16384 x.toNat)
    ++ k.opm.toList.flatMap (fun x => leBytes 4096 x.toNat)
    ++ k.opmSt.toList.flatMap (fun x => leBytes 1 (match x with
      | .free => 0
      | .owned => 1
      | .releasing => 2))
    ++ k.z.toList.flatMap (fun x => leBytes 512 x.toNat) ++ k.a.toList.flatMap (fun x => leBytes 4 x.toNat)
    ++ leBytes 2 k.p.toNat ++ k.m.toList.flatMap (fun x => leBytes 256 x.toNat)
    ++ k.q.toList.flatMap (fun x => leBytes 4 x.toNat) ++ leBytes 1 k.kflags.toNat
    ++ k.tsr.toList.flatMap fun x => leBytes 1 x.toNat

/-- Bytes of the kernel section (R216; log 17). -/
def KSave.bytes (k : KSave) : List Byte :=
  k.op.bytes
    ++ leBytes 8 (k.entry.toNat + k.kpc.toNat * 2 ^ 16 + k.nst.toNat * 2 ^ 32 + k.rot.toNat * 2 ^ 40
        + (if k.lent then 2 ^ 48 else 0) + if k.chk then 2 ^ 49 else 0)
    ++ leBytes 8 (k.nits.toNat + k.vmask.toNat * 2 ^ 32) ++ leBytes 8 (k.amask.toNat + k.omask.toNat * 2 ^ 32)
    ++ sect (k.rstack.flatMap fun x => leBytes 2 x.toNat)
    ++ k.bind.toList.flatMap (fun q =>
      leBytes 8 (q.base.toNat + (if q.valid then 2 ^ 23 else 0) + q.lm1.toNat * 2 ^ 32))
    ++ k.cl.toList.flatMap KCluster.bytes

/-- A store-fault record (R155). -/
def SfRecord.bytes (r : SfRecord) : List Byte :=
  leBytes 8 r.va.toNat ++ leBytes 8 r.data.toNat ++ leBytes 8 (r.size.toNat + r.cause.toNat * 4) ++ leBytes 8 r.seq.toNat

/-- The body sections in the order of R213. -/
def SaveArea.body (a : SaveArea) : List Byte :=
  sect (a.r.s.toList.flatMap (fun x => leBytes 8 x.toNat) ++ leBytes 8 a.r.pc.toNat)
    ++ sect (a.r.slk.toList.flatMap (fun x => leBytes 8 x.toNat) ++ leBytes 8 a.r.trapPc.toNat
        ++ leBytes 8 a.r.trapCause.toNat ++ leBytes 8 a.r.aflags.toNat ++ leBytes 8 a.r.afenable.toNat
        ++ leBytes 8 a.r.ttbase.toNat ++ leBytes 8 a.r.freezes.toNat
        ++ a.r.win.toList.flatMap fun w => leBytes 8 w.lo.toNat ++ leBytes 8 w.hi.toNat)
    ++ sect (a.chans.toList.flatMap (fun c => leBytes 8 c.chwp.toNat) ++ a.ops.flatMap StreamOp.bytes)
    ++ sect (leBytes 8 (a.cnt.toNat + a.gen.toNat * 2 ^ 32))
    ++ sect (a.kmap.flatMap fun k => leBytes 8 k.src.toNat ++ leBytes 8 (k.kbase.toNat + k.count * 2 ^ 32))
    ++ sect (a.recs.flatMap SfRecord.bytes)
    ++ sect (a.ranges.flatMap fun x => leBytes 8 x.1 ++ leBytes 8 x.2
        ++ (List.range (x.2 / 128)).flatMap fun i =>
          leBytes 128 (getAt 0 a.srf (x.1 / 128 + i)).toNat ++ leBytes 1 (if a.fe.getLsbD (x.1 / 128 + i) then 1 else 0))
    ++ match a.kst with
      | some k => sect k.bytes
      | none => []

/-- The area: header and body; SEQ is written last (R213). -/
def SaveArea.bytes (a : SaveArea) : List Byte :=
  let b := a.body
  leBytes 8 a.seq.toNat
    ++ leBytes 8 (a.kind.toNat + (if a.kst.isSome then 2 ^ 8 else 0) + (64 + b.length) % 2 ^ 32 * 2 ^ 32)
    ++ leBytes 48 0 ++ b

/-! ## What is saved (R31 to R33, R216) -/

/-- The unstarted stream ops in issue order. -/
def pendingOps (x : Streams) : List StreamOp :=
  ((x.chans.toList.flatMap Channel.queue) ++ x.kq ++ x.kimq ++ x.fences).mergeSort fun a b => decide (a.num ≤ b.num)

/-- The kernel live-range table that the poll bundle names (R216): VMASK, AMASK, OMASK. -/
def kernelTable (s : State) (ctx : CtxId) (code : W64) (lit : W32) : W32 × BitVec 4 × W32 :=
  match (codeOf s ctx code).bind fun c => c.section? .zlive with
  | none => (0, 0, 0)
  | some z =>
    match gRead s .none ctx .device (z.addr.toNat + 8 * (lit.toNat % 2 ^ 20)) 24 with
    | .error _ => (0, 0, 0)
    | .ok b => (BitVec.ofNat 32 (field b 8 8), BitVec.ofNat 4 (field b 8 8 / 2 ^ 32), BitVec.ofNat 32 (field b 16 8))

/-- The state of a cluster that the table lists; what it does not list reads 0 on resumption (R33, R36). -/
def keepLive (vm : W32) (am : BitVec 4) (om : W32) (k : KCluster) : KCluster :=
  { k with
    v := Vector.ofFn fun i => if vm.getLsbD i.val then k.v[i] else 0
    acc := Vector.ofFn fun i => if am.getLsbD i.val then k.acc[i] else 0
    opm := Vector.ofFn fun i => if om.getLsbD i.val then k.opm[i] else 0
    opmSt := Vector.ofFn fun i => if om.getLsbD i.val then k.opmSt[i] else .free
    hold := Vector.replicate 10 0 }

/-- The kernel section of a drained kernel (R215, R216). -/
def kernelSave (s : State) (g : Gang) (e : KEngine) : Option KSave :=
  match e.run with
  | none => none
  | some k =>
    match k.nits with
    | none => none
    | some (n, target, lit) =>
      let code := ((s.launch? g.launch).map fun l => l.r.code).getD 0
      let (vm, am, om) := kernelTable s g.ctx code lit
      some
        { op := k.op, entry := k.entry, blk := k.blk, kpc := target, nits := n, nst := e.nst, rot := e.rot
          lent := e.lent, rstack := e.rstack, bind := e.bind, vmask := vm, amask := am, omask := om
          cl := e.cl.map (keepLive vm am om), chk := e.chk }

/-- Lines of the ranges that the SRF list holds. -/
def linesIn (srf : List (Nat × Line)) (rs : List (Nat × Nat)) : List (Nat × Line) :=
  srf.filter fun x => rs.any fun r => decide (r.1 / 128 ≤ x.1) && decide (x.1 < (r.1 + r.2) / 128)

/-- The registers of a ckpt-partial save (R32): what the masks do not list is a free value (log 3, log 18). AFLAGS is saved
with every strand, FREEZES by R110, SLK0 to SLK3 by R177 and TTBASE by R429. -/
def partialRegs (tick : Nat) (r : ScpRegs) (t : LiveTable) : ScpRegs :=
  { r with
    trapPc := Config.freeWord tick 100, trapCause := Config.freeWord tick 101
    afenable := (Config.freeWord tick 102).setWidth _
    s := Vector.ofFn fun i => if t.smask.getLsbD i.val then r.s[i] else Config.freeWord tick i.val
    win := Vector.ofFn fun i =>
      if t.wmask.getLsbD i.val then r.win[i]
      else Window.init.load (Config.freeWord tick (64 + 2 * i.val)) (Config.freeWord tick (65 + 2 * i.val)) }

/-- The table of the ckpt at which the seat stands or rolls back to. -/
def seatTable (s : State) (g : Gang) (off : BitVec 20) : LiveTable :=
  match s.launch? g.launch with
  | some l => liveTable s l.ctx l.r.code off
  | none => emptyTable

/-- Everything that a full save carries. -/
def fullArea (s : State) (g : Gang) (q : Seat) (sp : SpId) : SaveArea :=
  let p := s.sp sp
  { seq := q.seq + 1, kind := 1, r := p.r, chans := p.str.chans.map fun c => { c with queue := [] }, tags := p.str.tags
    ops := pendingOps p.str, cnt := q.cnt, gen := g.gen, kmap := p.str.kmap, recs := p.sto.records, stoSeq := p.sto.seq
    srf := linesIn p.srf [(0, p.alloc)], fe := p.fe, ranges := [(0, p.alloc)], kst := kernelSave s g p.ke }

/-- What is saved of a seat stopped at a suspension point (R32). -/
def areaOf (s : State) (g : Gang) (q : Seat) (sp : SpId) : SaveArea :=
  let a := fullArea s g q sp
  match (s.sp sp).run with
  | .stopped (.ckpt off) =>
    let t := seatTable s g off
    let rs := t.ranges.map fun x => (x.1, x.2.2)
    { a with kind := 2, r := partialRegs s.tick a.r t, ranges := rs, srf := linesIn a.srf rs }
  | _ => a

/-- The status, cause, launch waited for and fault address that a seat's record takes (R24, R32). -/
def stopStatus (p : Sp) : StStatus × Cause × Option Nat × W64 :=
  match p.run with
  | .stopped (.twait id) => (.blocked, 0, id, 0)
  | .stopped (.fault c) =>
    (.faulted, c, none, match p.pend with
      | .repair _ va => va
      | _ => 0)
  | .parked => (.parked, 0, none, 0)
  | _ => (.suspended, 0, none, 0)

/-- Writes a seat's save area, whose place it keeps from its first write-back on. -/
def putArea (s : State) (gi n : Nat) (g : Gang) (a : SaveArea) : State :=
  match g.seats[n]? with
  | none => s
  | some q =>
    let (s1, va) := if q.save = 0 then devReserve s g.ctx 0x1000 saveBytes else (s, q.save)
    let b := a.bytes
    (devStore (s1.chipFront g.ctx g.die va.toNat b.length) g.ctx va b).modSeat gi n fun q => { q with save := va, area := some a }

/-- Whether the seat is inside a NO_ROLLBACK region once it has been saved: one stopped at a ckpt resumes in the region that this
ckpt's table opens (R32, R208). -/
def savedNoRb (s : State) (g : Gang) (q : Seat) (p : Sp) : Bool :=
  match p.run with
  | .stopped (.ckpt off) => (seatTable s g off).norb
  | _ => q.noRb

/-- Saves seat `n` of a gang (R31, R32). -/
def saveSeat (s : State) (gi n : Nat) (g : Gang) : State :=
  match g.seats[n]?, (g.seats[n]?).bind Seat.sp with
  | some q, some sp =>
    let s0 := drainIf (fun _ => true) s sp
    let (st, c, w, va) := stopStatus (s0.sp sp)
    (putArea s0 gi n g (areaOf s0 g q sp)).modSeat gi n fun q =>
      { q with status := st, pc := (s0.sp sp).r.pc, cause := c, rb := false, seq := q.seq + 1, waits := w, fva := va
               noRb := savedNoRb s0 g q (s0.sp sp) }
  | _, _ => s

def saveSeats (s : State) (gi : Nat) (g : Gang) : Nat → State
  | 0 => s
  | n + 1 => saveSeat (saveSeats s gi g n) gi n g

/-- The save of a gang is over. -/
def endSave (s : State) (gi : Nat) : State := s.modGang gi fun x => { x with saveAt := none }

/-- The gang leaves its SPs, resumable later; a GRAPH task becomes SUSPENDED (R55). -/
def leaveSps (s : State) (gi : Nat) (resume : Bool) : State :=
  match s.gang? gi with
  | none => s
  | some g =>
    let s1 := (freeSeats s g.seats).modGang gi fun x =>
      { x with resume := resume, seats := x.seats.map fun q => { q with sp := none } }
    let graph := ((s.launch? g.launch).map fun l => l.r.kind == 1).getD false
    let s2 := if graph then
        modTask (servedBy s1 g.launch g.die) g.launch g.tindex.toNat fun t => { t with status := .suspended }
      else s1
    endSave (writeRecords s2 gi g.size) gi

/-! ## Rollback (R211, R212) -/

/-- The full/empty bits of a rolled-back allocation (R212). -/
def rollbackFe (alloc : Nat) (t : LiveTable) : BitVec 65536 :=
  t.ranges.foldl (fun fe x => (List.range (x.2.2 / 128)).foldl (fun f i => setBitAt f (x.1 / 128 + i) (!x.2.1)) fe)
    (BitVec.ofNat 65536 (2 ^ (alloc / 128) - 1))

/-- What a rollback save holds: the SRF ranges that CKOFF lists and the KIM map. The SP's abandoned work has stopped. -/
def rollbackArea (s : State) (g : Gang) (q : Seat) (sp : SpId) (kmap : List KimLoad) (alloc : Nat) : SaveArea :=
  let t := if q.image.isSome then seatTable s g q.ckoff else emptyTable
  let rs := t.ranges.map fun x => (x.1, x.2.2)
  { seq := q.seq + 1, kind := 3, r := ScpRegs.init, chans := Vector.replicate 16 Channel.init
    tags := Vector.replicate 32 TagState.init, ops := [], cnt := q.cnt, gen := g.gen, kmap := kmap, recs := [], stoSeq := 0
    srf := linesIn (s.sp sp).srf rs, fe := rollbackFe alloc t, ranges := rs, kst := none }

/-- Seat `n` rolls back: its strand is abandoned, its record takes RB = 1 and PC = CKPC (R24, R211). A PARKED seat is
saved whole and stays PARKED. -/
def rollbackSeat (s : State) (gi n : Nat) (g : Gang) : State :=
  match g.seats[n]?, (g.seats[n]?).bind Seat.sp with
  | some q, some sp =>
    if (s.sp sp).run = .parked then saveSeat s gi n g
    else
      let p := s.sp sp
      let s1 := freeSp (drainIf (fun _ => true) s sp) sp
      (putArea s1 gi n g (rollbackArea s1 g q sp p.str.kmap p.alloc)).modSeat gi n fun q =>
        { q with status := .suspended, pc := q.ckpc, cause := 0, rb := true, seq := q.seq + 1, waits := none
                 cnt := (q.image.map Shadow.cnt).getD 0 }
  | _, _ => s

def rollbackSeats (s : State) (gi : Nat) (g : Gang) : Nat → State
  | 0 => s
  | n + 1 => rollbackSeat (rollbackSeats s gi g n) gi n g

/-- R211: the whole gang rolls back. -/
def rollbackGang (s : State) (gi : Nat) : State :=
  match s.gang? gi with
  | none => s
  | some g => leaveSps (rollbackSeats s gi g g.size) gi true

/-- A seat is stopped at once: its work is abandoned, and it holds its SP until the save is over (R194, R210). A PARKED seat stays
PARKED. -/
def haltSeat (s : State) (q : Seat) : State :=
  match q.sp with
  | none => s
  | some sp =>
    if (s.sp sp).run = .parked then s
    else (abandonSp (drainIf (fun _ => true) s sp) sp).modSp sp fun p => { p with run := .stopped .forced }

/-- A forced stop or a migration takes effect on the whole gang, whose save is in progress from then on at the latest (R210). -/
def haltGang (s : State) (gi : Nat) : State :=
  match s.gang? gi with
  | none => s
  | some g => (g.seats.foldl haltSeat s).modGang gi fun x => { x with saveAt := some (x.saveAt.getD s.time) }

def seatForced (s : State) (q : Seat) : Bool :=
  match q.sp with
  | none => false
  | some sp => (s.sp sp).run = .stopped .forced

/-- The task runs again from its start (R210, with IDEM = 1); a trig that it has executed stands (R62; log 87). -/
def renewGang (s : State) (gi : Nat) : State :=
  match s.gang? gi with
  | none => s
  | some g =>
    match s.launch? g.launch with
    | none => s
    | some l =>
      let s1 := freeSeats s g.seats
      leaveSps ((s1.modGang gi fun x => { x with gen := 0 }).modSeats gi fun q =>
        { newSeat l q.recAt q.img with seq := q.seq + 1, save := q.save, trig := q.trig }) gi false

/-- Some seat is inside a NO_ROLLBACK region; a PARKED seat has left its last region (R208). -/
def gangNoRb (s : State) (g : Gang) : Bool :=
  g.seats.any fun q => q.noRb && !seatParked s q

/-- Some seat has no complete checkpoint image (R207, R221). -/
def gangNoImage (s : State) (g : Gang) : Bool :=
  let idem := ((s.launch? g.launch).map fun l => l.r.idem).getD false
  !idem && g.seats.any fun q => q.image.isNone

/-! ## Resuming (R25, R27, R33, R214, R217) -/

/-- The producers that a BLOCKED seat's twait names are triggered, or its launch is final (R24). -/
def unblocked (s : State) (g : Gang) (q : Seat) : Bool :=
  match q.waits with
  | some n => launchFinal s n
  | none =>
    match s.launch? g.launch with
    | some l => ((l.binds.filter Prod.snd).map Prod.fst).all (isTriggered s)
    | none => true

/-- A BLOCKED seat of a gang off the SPs whose wait is over. -/
def Gang.wakes (s : State) (g : Gang) : Bool :=
  g.live && g.seats.any fun q => q.status = .blocked && q.sp.isNone && unblocked s g q

/-- R24: a BLOCKED seat whose producers have all triggered becomes SUSPENDED; its record is written. -/
def unblockGang (s : State) (gi : Nat) : State :=
  match s.gang? gi with
  | none => s
  | some g =>
    if g.wakes s then
      writeRecords (s.modSeats gi fun q =>
        if q.status = .blocked ∧ unblocked s g q = true then { q with status := .suspended, waits := none } else q) gi g.size
    else s

def unblockAll (s : State) : State := (List.range s.gangs.length).foldl unblockGang s

/-- R25: off the SPs, every seat SUSPENDED or PARKED, and one sequence number; or to be run again from the start. -/
def resumable (s : State) (g : Gang) : Bool :=
  g.live && g.seats.all (fun q => q.sp.isNone)
    && (s.ctx g.ctx).preempt.isNone
    && (g.seats.all (fun q => q.status = .new)
      || (g.resume && g.seats.all fun q => q.status = .suspended || q.status = .parked))
    && g.seats.all fun q => (g.seats.head?.map fun h => decide (h.seq = q.seq)).getD true

/-- R27: the checks of one record; `n` is its seat. -/
def recordOk (b : List Byte) (n glog : Nat) : Bool :=
  let w := field b 8 8
  let pcOk (v : Nat) : Bool := v % 8 == 0 && v / 2 ^ 56 == 0
  decide (1 ≤ bits w 0 8) && decide (bits w 0 8 ≤ 9) && decide (bits w 8 4 ≤ 1) && bits w 22 4 == n
    && bits w 26 3 == glog && bits w 30 2 == 0 && bits w 52 12 == 0 && pcOk (field b 0 8) && pcOk (field b 40 8)
    && field b 32 8 % 256 == 0 && field b 32 8 / 2 ^ 56 == 0

/-- R27: the record of a seat as memory holds it, against its save area's header; a NEW seat has none (R24). -/
def seatOk (s : State) (g : Gang) (glog : Nat) (q : Seat) (n : Nat) : Bool :=
  match gRead s .none g.ctx .device q.recAt.toNat 64 with
  | .error _ => false
  | .ok b =>
    recordOk b n glog
      && (q.status = .new || field b 32 8 != 0
        && match gRead s .none g.ctx .device (field b 32 8) 8 with
          | .error _ => false
          | .ok h => leNat h == field b 56 8)

def recordsOk (s : State) (g : Gang) : Bool :=
  let glog := ((s.launch? g.launch).map fun l => l.r.glog.toNat).getD 0
  g.seats.zipIdx.all fun x => seatOk s g glog x.1 x.2

/-- Puts back the lines of the saved ranges, data and full/empty bits. -/
def restoreLines (a : SaveArea) (p : Sp) : Sp :=
  a.ranges.foldl (fun q x => (List.range (x.2 / 128)).foldl (fun r i =>
    let n := x.1 / 128 + i
    { r with srf := setAt 0 r.srf n (getAt 0 a.srf n), fe := setBitAt r.fe n (a.fe.getLsbD n) }) q) p

/-- The loads that the KIM map repeats (R33); they carry no tag. -/
def reloadOps (r : ScpRegs) (l : List KimLoad) : List StreamOp :=
  l.zipIdx.map fun x =>
    ⟨x.2, none, 0, 0, r.slk[0], .kload x.1.kbase x.1.src (BitVec.ofNat 64 x.1.count)⟩

/-- The registers of the shadow (R207): what its masks do not list is as at entry. -/
def shadowRegs (entry : ScpRegs) (x : Shadow) : ScpRegs :=
  { x.r with
    s := Vector.ofFn fun i => if x.smask.getLsbD i.val then x.r.s[i] else entry.s[i]
    win := Vector.ofFn fun i => if x.wmask.getLsbD i.val then x.r.win[i] else Window.init
    pc := x.ckpc }

/-- The first number free for a new stream op of a resumed SP: above the KIM loads that are repeated and above every op whose
undelivered failure a channel or a tag holds, so that no fence takes one for the other (R362). -/
def freeOpNum (loads : Nat) (chans : Vector Channel 16) (tags : Vector TagState 32) : Nat :=
  ((chans.toList.flatMap fun c => c.und.map Prod.fst) ++ tags.toList.filterMap fun t => t.cause.map Prod.fst).foldl
    (fun m n => max m (n + 1)) loads

/-- The SP of a resumed seat takes its saved state; its kernel and its stream ops follow at release (R214). Store-fault
records that it brings are performed before the instruction at which they were delivered (R156). -/
def restoreSp (q : Seat) (p : Sp) : Sp :=
  match q.area with
  | none => p
  | some a =>
    let r := if q.rb then (match q.image with
        | some x => shadowRegs p.r x
        | none => p.r)
      else { a.r with pc := q.pc }
    let chans := if q.rb then (match q.image with
        | some x => x.chans.map fun c => { c with queue := [], run := none }
        | none => p.str.chans)
      else a.chans
    let p1 := if q.rb then p.setFullRange 0 true (p.alloc / 128) else p
    restoreLines a { p1 with
      r := r
      sto := { Stores.init with records := a.recs, seq := a.stoSeq, delivered := !a.recs.isEmpty }
      str := { p.str with kimq := reloadOps r a.kmap, num := freeOpNum a.kmap.length chans a.tags, chans := chans } }

def restoreSeats (s : State) : List Seat → State
  | [] => s
  | q :: l =>
    match q.sp with
    | none => restoreSeats s l
    | some sp => restoreSeats (if q.status = .new then s else s.modSp sp (restoreSp q)) l

/-- The saved Dealer operations that `sel` selects enter the queue of a die again, in order of acceptance (R194). -/
def requeueDeals (s : State) (ctx : CtxId) (sel : DealOp → Bool) (die : DieId → DieId) : State :=
  let c := s.ctx ctx
  ((c.savedOps.filter fun o => sel o.2).foldl (fun z o =>
    z.modDie (die o.1) fun x => { x with dealer := { x.dealer with queue := x.dealer.queue ++ [o.2] } }) s).modCtx ctx
      fun x => { x with savedOps := x.savedOps.filter fun o => !sel o.2 }

/-- The gang is checked, placed and reloaded (R27, R214). With the first gang of its launch that resumes, the launch's saved
Dealer operations are queued on its die (R194; log 109). -/
def resumeGang (s : State) (gi : Nat) (die : DieId) (place : Placement) : State :=
  match s.gang? gi with
  | none => s
  | some g =>
    if !recordsOk s g then failGang s gi 0 cContRecordBad
    else
      let s1 := placeGang s gi die place
      match s1.gang? gi with
      | none => s1
      | some g1 =>
        if !g1.live then s1
        else
          let s2 := (restoreSeats (requeueDeals s1 g.ctx (fun o => o.launch = some g.launch) fun _ => die)
            g1.seats).modLaunch g.launch fun l =>
            { l with lastDisp := s.time, lastDie := die }
          let graph := ((s.launch? g.launch).map fun l => l.r.kind == 1).getD false
          if graph then modTask s2 g.launch g.tindex.toNat fun t => { t with status := .running } else s2

/-- A saved op takes its place again; its tag is pending (R214). -/
def requeue (x : Streams) (o : StreamOp) : Streams :=
  let y := match o.tag with
    | some t => { x with tags := x.tags.set t ⟨true, none⟩ }
    | none => x
  let z := match o.body with
    | .copy _ _ _ ch _ => y.modChan ch fun c => { c with queue := c.queue ++ [o] }
    | .kload .. => { y with kimq := y.kimq ++ [o] }
    | .krun .. => { y with kq := y.kq ++ [o] }
    | .sfence _ => { y with fences := y.fences ++ [o] }
  { z with num := max z.num (o.num + 1) }

/-- The clusters of a resumed kernel (R217). -/
def resumeCluster (k : KCluster) : KCluster := { k with p := stagePreds k.p 0x80, hold := Vector.replicate 10 0 }

/-- R217: the kernel goes on at its poll target. -/
def resumeKernel (e : KEngine) (k : KSave) : KEngine :=
  { e with
    cl := k.cl.map resumeCluster, nit := k.nits - 1, nps := k.nits.setWidth 40 + k.nst.setWidth 40 - 1, nst := k.nst
    rot := k.rot, chk := k.chk, lent := k.lent, rstack := k.rstack, bind := k.bind, rep := none
    run := some (⟨k.op, k.entry, k.blk, k.kpc, e.stepNo, .issuing, none, none⟩ : KRun) }

/-- An SP of the gang starts: kernel, stream ops, SCP (R214). -/
def releaseSp (q : Seat) (p : Sp) : Sp :=
  let live := if q.status = .parked then RunState.parked else .running
  match q.area with
  | none => { p with run := live }
  | some a =>
    if q.rb || q.status = .new then { p with run := live }
    else
      let x := { p.str with tags := a.tags }
      let y := match a.kst with
        | some k => (match k.op.tag with
          | some t => { x with tags := x.tags.set t ⟨true, none⟩ }
          | none => x)
        | none => x
      { p with
        run := live, str := a.ops.foldl requeue y
        ke := match a.kst with
          | some k => resumeKernel p.ke k
          | none => p.ke }

/-- Every SP of the gang holds its strand and has made its KIM loads. -/
def gangFormed (s : State) (g : Gang) : Bool :=
  g.live && !g.seats.isEmpty && g.seats.all fun q =>
    match q.sp with
    | none => false
    | some sp => (s.sp sp).run = .formed && (s.sp sp).str.kimq.isEmpty && (s.sp sp).str.kload.isNone

def releaseSeats (s : State) : List Seat → State
  | [] => s
  | q :: l =>
    match q.sp with
    | none => releaseSeats s l
    | some sp => releaseSeats (s.modSp sp (releaseSp q)) l

/-- R28, step 6: every SP of the gang issues its first instruction. -/
def releaseGang (s : State) (gi : Nat) : State :=
  match s.gang? gi with
  | none => s
  | some g =>
    writeRecords ((releaseSeats s g.seats).modSeats gi fun q =>
      { q with status := if q.status = .parked then .parked else .running, rb := false, cause := 0 }) gi g.size

end Sys2Proof.Machine
end

