-- ==== Sys2Proof/Machine/Results.lean ====
section
/-! DEFINITION. Result words (R232), the work log of the Equinox cores (R238), shootdowns (R205), and commands that end
later than they begin. -/

namespace Sys2Proof.Machine

open Sys2Proof

/-! ## Result words (R232) -/

/-- CAUSE in bits [9:0], VALUE in bits [63:16]. -/
def resultVal (c : Cause) (v : Nat) : W64 := BitVec.ofNat 64 (c.toNat + v % 2 ^ 48 * 2 ^ 16)

/-- Writes a result word with release at system scope; one that cannot be written is dropped and reported. -/
def putResult (s : State) (r : ResultWord) : State :=
  let va := r.addr.toNat
  match translate s .none r.ctx va .write .equinox with
  | .error c =>
    if repairable s r.ctx va c then
      askPage (s.modDev fun d => { d with results := d.results ++ [r] }) r.ctx r.addr
    else emitQueue s r.ctx c r.qid
  | .ok lf => (s.chipEqx r.ctx va 8).physWrite (lf.pa va) (leBytes 8 r.val.toNat)

/-- The result word of a packet; an RSLT of 0 asks for none. -/
def result (s : State) (ctx : CtxId) (qid : BitVec 12) (rslt : W64) (c : Cause) (v : Nat) : State :=
  if rslt = 0 then s else putResult s ⟨ctx, qid, rslt, resultVal c v⟩

/-! ## Work records (R238; log 19) -/

/-- The 64 bytes of a work record. -/
def WorkRec.bytes (w : WorkRec) : List Byte :=
  leBytes 8 (w.code.toNat + w.what.qid.toNat * 2 ^ 16 + w.what.ctx.val * 2 ^ 32 + if w.done then 2 ^ 63 else 0)
    ++ leBytes 8 w.what.rslt.toNat ++ leBytes 8 w.what.a0.toNat ++ leBytes 8 w.what.a1.toNat
    ++ leBytes 8 w.what.a2.toNat ++ leBytes 8 w.what.a3.toNat ++ leBytes 16 0

/-- A core writes to a record of its log. -/
def putWork (s : State) (w : WorkRec) : State :=
  devStore (s.chipEqx w.what.ctx w.addr.toNat 64) w.what.ctx w.addr w.bytes

/-- The record that a core writes before it acts. -/
def beginWork (s : State) (c : Cmd) (code : BitVec 16) : State :=
  let (s1, a) := devReserve s c.ctx 64 64
  let w : WorkRec := ⟨c, code, false, a⟩
  (putWork s1 w).modEqx s.core fun k => { k with log := k.log ++ [w] }

/-- The unfinished record of this command in the logs, the earliest of the lowest-numbered core. -/
def workOf (s : State) (c : Cmd) (code : BitVec 16) : Option WorkRec :=
  (List.finRange 12).findSome? fun i => (s.eqx i).log.find? fun w => !w.done && w.what = c && w.code = code

/-- The record is marked done, in each log that holds it: a successor's log holds those of a fenced core too (R238). -/
def endWork (s : State) (c : Cmd) (code : BitVec 16) : State :=
  match workOf s c code with
  | none => s
  | some w =>
    let t := putWork s { w with done := true }
    { t with cores := t.cores.map fun k =>
        { k with log := k.log.map fun x => if x = w then { x with done := true } else x } }

/-- The work record of a page-in (R238; log 19). -/
def pageCmd (ctx : CtxId) (va : W64) : Cmd := ⟨ctx, 0, 0, va, 0, 0, 0⟩
def pageCode : BitVec 16 := 0xFFFF

/-- The code of a fault's work record (log 19). -/
def faultCode : BitVec 16 := 0xFFFE

/-- The core that acts on what is not a core's own turn: the present one, or, where that is not active, the lowest active one
(R238). -/
def actingCore (s : State) : CoreId :=
  if (s.eqx s.core).status = .active then s.core
  else ((List.finRange 12).find? fun i => (s.eqx i).status = .active).getD s.core

/-- Equinox has acted on the faults of this turn: each has its record, marked done (R238). -/
def settleFaults (s : State) : State :=
  if s.dev.faults.isEmpty then s
  else
    s.dev.faults.foldl (fun t c => endWork (beginWork t c faultCode) c faultCode)
      { s.modDev (fun d => { d with faults := [] }) with core := actingCore s }

/-- A command ends: its effects have been performed, its result word is written (R234), its record is done. -/
def endCmd (s : State) (c : Cmd) (code : BitVec 16) (cause : Cause) (v : Nat) : State :=
  endWork (result s c.ctx c.qid c.rslt cause v) c code

/-- What a command comes to. -/
inductive CmdEnd where
  | ok (v : Nat) (s : State)
  | fail (c : Cause) (v : Nat)
  /-- It ends later, with VALUE `v` (R233). -/
  | later (w : CmdWait) (v : Nat) (s : State)

/-- EQX_QPACKET_BAD with a VALUE of R232. -/
def CmdEnd.bad (v : Nat) : CmdEnd := .fail cEqxQpacketBad v

/-- Runs a command: work record, effect, result word (R234, R238). -/
def runCmd (s : State) (c : Cmd) (code : BitVec 16) (f : State → CmdEnd) : State :=
  let s1 := beginWork s c code
  match f s1 with
  | .ok v t => endCmd t c code 0 v
  | .fail k v => endCmd s1 c code k v
  | .later w v t => t.modDev fun d => { d with cmds := d.cmds ++ [⟨c, code, w, v⟩] }

/-! ## Shootdowns (R205) -/

/-- The open requests of a unit, and adds that its copies have in flight. -/
def unitBusy (s : State) (u : TlbUnit) : Bool :=
  (s.dev.txns.any fun t =>
    match u, t.who with
    | .sp i, w => w.onSp i
    | .die d, .scatter e _ => d = e
    | .die d, .dealer e => d = e
    | _, _ => false)
    || match u with
      | .sp i => (s.sp i).str.chans.toList.any fun c => (c.run.map fun r => !r.adds.isEmpty).getD false
      | .die _ => false

/-- The unit drops what overlaps the range, and performs the queued stores of its strand, in order: those that it holds
translated and, so that no two of them change places, the others (R140, R205, step 3). -/
def ackOne (s : State) (u : TlbUnit) (x : Shootdown) : State :=
  match u with
  | .sp i =>
    let s1 := if (s.sp i).id.ctx = x.ctx then drainIf (fun _ => true) s i else s
    s1.modSp i fun p => { p with tlb := dropEntries x.ctx x.lo x.hi p.tlb }
  | .die d => s.modDie d fun k => { k with l2 := dropEntries x.ctx x.lo x.hi k.l2 }

/-- The unit has acknowledged every shootdown it owes. -/
def ackAll (s : State) (u : TlbUnit) : State :=
  let mine := s.dev.shoots.filter fun x => x.left.contains u
  let s1 := mine.foldl (fun t x => ackOne t u x) s
  let l := s1.dev.shoots.map fun x => if mine.contains x then { x with left := x.left.filter fun v => v != u } else x
  let done := l.filter fun x => x.left.isEmpty
  s1.modDev fun d =>
    { d with
      shoots := l.filter fun x => !x.left.isEmpty
      frames := d.frames.filter fun f => !(done.any fun x => x.frees.contains f.1) }

/-- R205: a unit acknowledges, once every access it made through a removed entry has been performed. -/
def execShootdownAck (u : TlbUnit) (s : State) : Out :=
  if s.dev.shoots.any (fun x => x.left.contains u) && !unitBusy s u then .next (ackAll s u)
  else .refused (.notEnabled "SHOOTDOWN_ACK")

/-! ## Commands that wait (R233) -/

/-- The context has left the SPs, its walkers are captured and its Dealer operations are saved or ended (R52, R194,
R210). -/
def ctxStopped (s : State) (ctx : CtxId) : Bool :=
  !(s.gangs.any fun g => g.live && g.ctx = ctx && g.seats.any fun q => q.sp.isSome)
    && !(s.dies.toList.any fun d =>
      (match d.dealer.run with
        | some r => decide (r.op.ctx = ctx)
        | none => false)
      || d.walkers.toList.any fun w =>
        match w with
        | .active l _ _ => (s.launch? l).any fun x => decide (x.ctx = ctx)
        | .frozen l _ _ => (s.launch? l).any fun x => decide (x.ctx = ctx)
        | _ => false)

end Sys2Proof.Machine
end

