-- ==== Sys2Proof/Machine/DealerOps.lean ====
section
/-! DEFINITION. The Dealer (spec/09): its accesses, Count, Reserve, Scatter, Publish with the completion block (R187 to
R193), and undeal (R196). -/

namespace Sys2Proof.Machine

open Sys2Proof

/-! ## Accesses of a Dealer (R194) -/

/-- What an access comes to. -/
inductive DealGot where
  | data (d : List Byte) (s : State)
  | pause (s : State)
  | fail (c : Cause)

def modDealer (s : State) (d : DieId) (f : Dealer → Dealer) : State :=
  s.modDie d fun x => { x with dealer := f x.dealer }

def DealAsk.is (u : DealAsk) (typ : BitVec 6) (acc : BitVec 11) (key : W32) (addr n : Nat) : Bool :=
  u.typ = typ && u.acc = acc && u.key = key && u.addr = addr && u.len = n

/-- The answer to a request of the present step; the request is sent when it has not been. -/
def dealAsk (s : State) (die : DieId) (o : DealOp) (typ : BitVec 6) (acc : BitVec 11) (key : W32) (addr n : Nat)
    (d : List Byte) : DealGot :=
  match (s.die die).dealer.memo.find? fun u => u.is typ acc key addr n with
  | some ⟨_, _, _, _, _, some (.data b)⟩ => .data b s
  | some ⟨_, _, _, _, _, some (.err c)⟩ => .fail c
  | some ⟨_, _, _, _, _, none⟩ => .pause s
  | none =>
    match sendReq s (.dealer die) o.ctx (ssidDealer die) typ 0 acc key addr n o.slack false d with
    | .ok _ t => .pause (modDealer t die fun x => { x with memo := x.memo ++ [⟨typ, acc, key, addr, n, none⟩] })
    | .wait => .pause s
    | .unreachable => .fail cAccUnreachable

/-- A translation fault: a page that Equinox can bring is waited for, and asked for once; a stale translation is dropped, and
the access is made again (R194, R425). -/
def dealFault (s : State) (die : DieId) (ctx : CtxId) (c : Cause) (va : Nat) : DealGot :=
  if repairable s ctx va c then
    match (s.die die).dealer.memo.find? fun u => u.is 0 0 0 va 0 with
    | some ⟨_, _, _, _, _, some (.err k)⟩ => .fail k
    | some _ => .pause s
    | none =>
      .pause (askPage (modDealer s die fun x => { x with memo := x.memo ++ [⟨0, 0, 0, va, 0, none⟩] }) ctx (BitVec.ofNat 64 va))
  else if staleFault s (.die die) ctx c va then .pause (refreshTlb s (.die die) ctx va)
  else .fail c

/-- One packet of a Dealer to memory of this chip (R165; log 117). -/
def chipDeal (s : State) (die : DieId) (o : DealOp) : State := s.chip o.ctx (ssidDealer die) o.slack 1

/-- How many of `n` bytes at `va` one access of the Dealer covers: one 256-byte block, of ADDR on a REMOTE page (R161). -/
def dealSpan (lf : Leaf) (va n : Nat) : Nat := min n (if lf.kind = 1 then lf.room va else 256 - va % 256)

/-- Reads `n` bytes at `va`; `fuel` bounds the accesses. -/
def dealReadAll (die : DieId) (o : DealOp) : Nat → Nat → Nat → State → List Byte → DealGot
  | 0, _, _, s, got => .data got s
  | fuel + 1, va, n, s, got =>
    if n = 0 then .data got s
    else
      match translate s (.die die) o.ctx va .read .dealer with
      | .error c => dealFault s die o.ctx c va
      | .ok lf =>
        let s1 := fillTlb s (.die die) o.ctx lf
        let k := dealSpan lf va n
        if lf.kind = 1 then
          let (acc, key, addr) := lf.remote va
          match dealAsk s1 die o tREAD acc key addr k [] with
          | .data d t => dealReadAll die o fuel (va + k) (n - k) t (got ++ d)
          | x => x
        else if poisoned s1.dev.poison (lf.pa va) k then dealFault s1 die o.ctx cMediaError va
        else dealReadAll die o fuel (va + k) (n - k) (chipDeal s1 die o) (got ++ s1.physRead (lf.pa va) k)

def dealRead (s : State) (die : DieId) (o : DealOp) (va n : Nat) : DealGot := dealReadAll die o (n + 1) va n s []

/-- Writes bytes at `va`; a REMOTE piece is acknowledged before the next one. -/
def dealWriteAll (die : DieId) (o : DealOp) : Nat → Nat → State → List Byte → DealGot
  | 0, _, s, _ => .data [] s
  | fuel + 1, va, s, d =>
    if d.isEmpty then .data [] s
    else
      match translate s (.die die) o.ctx va .write .dealer with
      | .error c => dealFault s die o.ctx c va
      | .ok lf =>
        let s1 := fillTlb s (.die die) o.ctx lf
        let k := dealSpan lf va d.length
        if lf.kind = 1 then
          let (acc, key, addr) := lf.remote va
          match dealAsk s1 die o tPWR acc key addr k (d.take k) with
          | .data _ t => dealWriteAll die o fuel (va + k) t (d.drop k)
          | x => x
        else dealWriteAll die o fuel (va + k) ((chipDeal s1 die o).physWrite (lf.pa va) (d.take k)) (d.drop k)

def dealWrite (s : State) (die : DieId) (o : DealOp) (va : Nat) (d : List Byte) : DealGot :=
  dealWriteAll die o (d.length + 1) va s d

/-- The operation's record after a step that has ended; its accesses are over. -/
def dealSet (s : State) (die : DieId) (r : Option DealRun) : State :=
  modDealer s die fun x => { x with run := r, memo := [] }

/-- Goes on with what an access brought, waits, or handles its failure. -/
def DealGot.andThen (g : DealGot) (k : List Byte → State → State) (bad : Cause → State) : State :=
  match g with
  | .data d s => k d s
  | .pause s => s
  | .fail c => bad c

/-! ## Map entries and choices (R185 to R187) -/

def parseEMap (b : List Byte) : EMapEnt :=
  let w0 := field b 0 8
  { acc := BitVec.ofNat 11 w0, valid := bit w0 11, key := BitVec.ofNat 32 (w0 / 2 ^ 32)
    base := BitVec.ofNat 64 (field b 8 8), cap := BitVec.ofNat 32 (field b 16 4), rstr := BitVec.ofNat 32 (field b 20 4)
    cnt := BitVec.ofNat 64 (field b 24 8)
    resOk := bits w0 12 20 = 0 && field b 15 1 = 0 && field b 31 1 = 0 }

/-- The tests of R187 beside VALID. -/
def EMapEnt.sound (e : EMapEnt) (rowb : Nat) : Bool :=
  e.resOk && e.base.toNat % 64 = 0 && e.cnt.toNat % 16 = 0 && decide (rowb ≤ e.rstr.toNat) && e.rstr.toNat % 64 = 0

def EMapEnt.usable (e : EMapEnt) (rowb : Nat) : Bool := e.valid && e.sound rowb

/-- Classifies the choices in ascending order; `want` counts per expert (R187). -/
def classify (rowb : Nat) (ents : List EMapEnt) : List (BitVec 16 × BitVec 16) → List Nat → List DealChoice × List Nat
  | [], want => ([], want)
  | (x, g) :: l, want =>
    let i := x.toNat
    let drop (c : Cause) : List DealChoice × List Nat :=
      let r := classify rowb ents l want
      (⟨x, g, .dropped 4 c⟩ :: r.1, r.2)
    match (if x.msb then none else ents[i]?) with
    | none => drop 0
    | some e =>
      if e.usable rowb then
        let r := classify rowb ents l (modList (· + 1) want i)
        (⟨x, g, .counted ((want[i]?).getD 0)⟩ :: r.1, r.2)
      else drop (if e.valid || !e.sound rowb then cDealMapBad else 0)

/-- The operation at its start. -/
def DealRun.init (o : DealOp) (p : DealPhase) : DealRun :=
  { op := o, phase := p, experts := [], choices := [], next := 0, inv := [], waitRes := 0, pubs := 0, cause := 0, failed := false
    incomplete := false }

/-! ## Count and Reserve (R187, R188) -/

/-- The RESV add of expert `x`, or none while the stream has no free tag (R175). -/
def reserveOne (s : State) (die : DieId) (o : DealOp) (x : Nat) (e : Expert) : Option State :=
  if e.want = 0 then some s
  else
    match sendReq s (.reserve die x) o.ctx (ssidDealer die) tATOM 0 e.ent.acc e.ent.key e.ent.cnt.toNat 8 o.slack false
        (leBytes 8 e.want) with
    | .ok _ t => some (modDeal t die fun r => { r with waitRes := r.waitRes + 1 })
    | .wait => none
    | .unreachable => some (modDeal s die fun r =>
      ({ r with experts := modList (fun y => { y with bad := some (3, cAccUnreachable) }) r.experts x }).note
        cAccUnreachable)

/-- The RESV adds of the experts from the next one on, as far as tags are free; after the last, Scatter begins. -/
def reserveAll (s : State) (die : DieId) (o : DealOp) : List (Expert × Nat) → State
  | [] => modDeal s die fun r => { r with phase := .scatter, next := 0 }
  | (e, x) :: l =>
    match reserveOne s die o x e with
    | some t => reserveAll (modDeal t die fun r => { r with next := x + 1 }) die o l
    | none => s

/-- The operation fails in Count: no Reserve (R194). -/
def countFailed (s : State) (die : DieId) (o : DealOp) (c : Cause) : State :=
  dealSet s die (some { DealRun.init o .block with cause := c, failed := true })

/-- Choices and map have been read. -/
def countDone (s : State) (die : DieId) (o : DealOp) (ch em : List Byte) : State :=
  let ents := (List.range o.d.e.toNat).map fun x => parseEMap ((em.drop (32 * x)).take 32)
  let raw := (List.range (o.d.t.toNat * o.d.k.toNat)).map fun i =>
    ((BitVec.ofNat 16 (field ch (4 * i) 2), BitVec.ofNat 16 (field ch (4 * i + 2) 2)) : BitVec 16 × BitVec 16)
  let (cs, want) := classify o.d.rowb.toNat ents raw (List.replicate ents.length 0)
  let ex : List Expert := (ents.zip want).map fun x => ⟨x.1, x.2, none, 0, none⟩
  let mapBad := cs.any fun c => c.out = .dropped 4 cDealMapBad
  let r := { DealRun.init o .reserve with
    experts := ex, choices := cs, cause := if mapBad then cDealMapBad else 0 }
  reserveAll (dealSet s die (some r)) die o ex.zipIdx

/-- R187: the choices, then the map, are read. -/
def countStep (s : State) (die : DieId) (o : DealOp) : State :=
  (dealRead s die o o.d.choice.toNat (4 * (o.d.t.toNat * o.d.k.toNat))).andThen
    (fun ch t => (dealRead t die o o.d.emap.toNat (32 * o.d.e.toNat)).andThen
      (fun em u => countDone u die o ch em) (countFailed t die o))
    (countFailed s die o)

/-- The next operation begins (R183): it leaves the queue. -/
def dealBegin (s : State) (die : DieId) (o : DealOp) : State :=
  let p : DealPhase := if o.cancelled then .block else if o.undeal then .gather else .count
  modDealer s die fun x => { queue := x.queue.drop 1, run := some (DealRun.init o p), memo := [] }

/-- The operation that a Dealer may begin or goes on counting. -/
def countable (s : State) (die : DieId) : Option (DealOp × State) :=
  match (s.die die).dealer.run, (s.die die).dealer.queue with
  | some r, _ => if r.phase = .count then some (r.op, s) else none
  | none, o :: _ =>
    if !o.undeal && !o.cancelled && (s.ctx o.ctx).preempt.isNone then some (o, dealBegin s die o) else none
  | none, [] => none

/-- R187, R188. -/
def execDealCount (die : DieId) (s : State) : Out :=
  match countable s die with
  | some (o, t) => .next (countStep t die o)
  | none => .refused (.notEnabled "DEAL_COUNT")

/-! ## Scatter (R189, R193) -/

def DealOut.isDrop (o : DealOut) : Bool :=
  match o with
  | .dropped .. => true
  | _ => false

/-- Choice `i` has this outcome, and the Dealer turns to the next. A drop is final: its INV entry is to be written. -/
def setChoice (s : State) (die : DieId) (i : Nat) (o : DealOut) : State :=
  modDeal (modDealer s die fun x => { x with memo := [] }) die fun r =>
    { r with
      next := i + 1, choices := modList (fun c => { c with out := o }) r.choices i
      inv := if o.isDrop then r.inv ++ [i] else r.inv }

/-- What came of sending a row: sent, not yet all tags free (R175), or its target cannot be reached (R171). -/
inductive RowSent where
  | ok (s : State)
  | wait
  | unreachable

/-- Sends the packets of a row. An address beyond the 56 bits of a packet loses its upper bits (log 123). -/
def sendRow (die : DieId) (o : DealOp) (i : Nat) (e : EMapEnt) : List (Nat × Nat) → State → List Byte → RowSent
  | [], s, _ => .ok s
  | (a, n) :: l, s, d =>
    match sendReq s (.scatter die i) o.ctx (ssidDealer die) tPWR 0 e.acc e.key (a % 2 ^ 56) n o.slack false (d.take n) with
    | .ok _ t => sendRow die o i e l t (d.drop n)
    | .wait => .wait
    | .unreachable => .unreachable

/-- The row of choice `i` goes to slot `slot` of expert `x`; nothing more is sent to one that cannot be reached (R189). -/
def scatterRow (s : State) (die : DieId) (r : DealRun) (i x slot : Nat) (e : Expert) : State :=
  let o := r.op
  let a := o.d.rows.toNat + i / o.d.k.toNat * o.d.sstr.toNat
  let dstA := e.ent.base.toNat + slot * e.ent.rstr.toNat
  let ps := pieces 256 dstA o.d.rowb.toNat (o.d.rowb.toNat + 1)
  (dealRead s die o a o.d.rowb.toNat).andThen
    (fun d t =>
      match sendRow die o i e.ent ps t d with
      | .ok u => setChoice u die i (.sent slot ps.length none)
      | .wait => t
      | .unreachable =>
        modDeal (setChoice t die i (.dropped 3 cAccUnreachable)) die fun q =>
          (q.expertBad x (3, cAccUnreachable)).note cAccUnreachable)
    (fun c => modDeal (setChoice s die i (.dropped 3 c)) die fun q => q.note c)

def invWord (c : DealChoice) : Nat :=
  match c.out with
  | .placed slot => slot
  | _ => 0xFFFF_FFFF

/-- Writes the INV entry of choice `i` (R189, R192, R193). When it cannot be written the operation is FAILED: nothing more
is scattered (R191). -/
def invStep (s : State) (die : DieId) (r : DealRun) (i : Nat) : State :=
  let w := ((r.choices[i]?).map invWord).getD 0xFFFF_FFFF
  (dealWrite s die r.op (r.op.d.inv.toNat + 4 * i) (leBytes 4 w)).andThen
    (fun _ t => modDeal (modDealer t die fun x => { x with memo := [] }) die fun q => { q with inv := q.inv.drop 1 })
    (fun c => modDeal (modDealer s die fun x => { x with memo := [] }) die fun q => { q.note c with failed := true })

/-- R189: the next INV entry, else the next choice. `slot` is the sum of R189 without a wrap at 64 bits (log 123). -/
def scatterStep (s : State) (die : DieId) (r : DealRun) : State :=
  match r.inv with
  | j :: _ => invStep s die r j
  | [] =>
    let i := r.next
    match r.choices[i]? with
    | none => s
    | some c =>
      match c.out, r.experts[c.expert.toNat]? with
      | .counted pos, some e =>
        match e.bad, e.base with
        | some b, _ => setChoice s die i (.dropped b.1 b.2)
        | none, none => setChoice s die i (.dropped 3 0)
        | none, some base =>
          let slot := base.toNat + pos
          if slot ≥ e.ent.cap.toNat then setChoice s die i (.dropped 1 0)
          else scatterRow s die r i c.expert.toNat slot e
      | o, _ => setChoice s die i o

/-- The operation that goes on with its RESV adds, or whose next row or INV entry is due: every RESV add is answered. -/
def scatterable (s : State) (die : DieId) : Option DealRun :=
  match (s.die die).dealer.run with
  | some r =>
    if r.phase = .reserve
      ∨ (r.phase = .scatter ∧ r.waitRes = 0 ∧ r.failed = false ∧ (r.next < r.choices.length ∨ r.inv ≠ [])) then some r
    else none
  | none => none

/-- R188, R189. -/
def execDealScatter (die : DieId) (s : State) : Out :=
  match scatterable s die with
  | some r =>
    .next (if r.phase = .reserve then reserveAll s die r.op (r.experts.zipIdx.drop r.next) else scatterStep s die r)
  | none => .refused (.notEnabled "DEAL_SCATTER")

/-! ## Publish (R190 to R193) -/

/-- The next step of publishing. -/
def nextItem (s : State) (die : DieId) (r : DealRun) : State := dealSet s die (some { r with next := r.next + 1 })
def nextPhase (s : State) (die : DieId) (r : DealRun) (p : DealPhase) : State :=
  dealSet s die (some { r with phase := p, next := 0 })

/-- An array of the context cannot be written: FAILED, and the DONE adds follow (R190, R191). -/
def publishFailed (s : State) (die : DieId) (r : DealRun) (c : Cause) : State :=
  nextPhase s die { r.note c with failed := true } .adds

def publishWrite (s : State) (die : DieId) (r : DealRun) (va : Nat) (d : List Byte) : State :=
  (dealWrite s die r.op va d).andThen (fun _ t => nextItem t die r) (publishFailed s die r)

/-- The dropped choices in ascending order. -/
def DealRun.drops (r : DealRun) : List (DealChoice × Nat) := r.choices.zipIdx.filter fun c => c.1.out.isDrop

/-- A count entry (R190). -/
def countBytes (e : Expert) : List Byte :=
  leBytes 4 e.want ++ leBytes 4 e.placed ++ leBytes 8 ((e.base.map BitVec.toNat).getD (2 ^ 64 - 1))

/-- A drop record (R192). -/
def dropBytes (k : Nat) (c : DealChoice × Nat) : List Byte :=
  let (reason, cause) := match c.1.out with
    | .dropped r k => (r.toNat, k.toNat)
    | _ => (0, 0)
  leBytes 4 (c.2 / k) ++ leBytes 4 (c.2 % k + c.1.expert.toNat * 2 ^ 16) ++ leBytes 4 (reason + cause * 2 ^ 4)
    ++ leBytes 4 0

/-- STATUS of the completion block (R191). -/
def DealRun.status (r : DealRun) : Nat :=
  if r.op.cancelled then 4 else if r.failed then 3 else if r.incomplete then 2 else if !r.op.undeal && !r.drops.isEmpty then 1 else 0

/-- The word at DSIG + 8. -/
def DealRun.statusWord (r : DealRun) : Nat :=
  r.status + r.cause.toNat * 2 ^ 8 + (if r.op.undeal then 0 else r.drops.length) * 2 ^ 32

/-- The operation is complete (R183, R220). -/
def dealDone (s : State) (die : DieId) (r : DealRun) : State :=
  let t := dealSet s die none
  if r.op.cancelled then t else progress t r.op.ctx

/-- The completion block, STATUS first and SEQ last (R191). -/
def blockStep (s : State) (die : DieId) (r : DealRun) : State :=
  let o := r.op
  let a := o.d.dsig.toNat
  let bad (c : Cause) : State := dealDone (emitDeal s die o.ctx c o.d.seq) die r
  (dealWrite s die o (a + 8) (leBytes 8 r.statusWord)).andThen
    (fun _ t => (dealWrite t die o a (leBytes 8 o.d.seq.toNat)).andThen
      (fun _ u =>
        dealDone (if r.status = 2 ∨ r.status = 3 then emitDeal u die o.ctx r.cause o.d.seq else u) die r) bad) bad

/-- The DONE add of an expert (R190, step 3). -/
def doneAdd (s : State) (die : DieId) (r : DealRun) (x : Nat) (e : Expert) : State :=
  if !e.ent.usable r.op.d.rowb.toNat then nextItem s die r
  else
    match sendReq s (.doneAdd die x) r.op.ctx (ssidDealer die) tATOM 0 e.ent.acc e.ent.key
        ((e.ent.cnt.toNat + 8) % 2 ^ 56) 8 r.op.slack false (leBytes 8 (2 ^ 32 + e.placed)) with
    | .ok _ t => nextItem t die { r with pubs := r.pubs + 1 }
    | .wait => s
    | .unreachable => nextItem s die ({ r with incomplete := true }.note cAccUnreachable)

/-- One step of Publish. -/
def publishStep (s : State) (die : DieId) (r : DealRun) : State :=
  let d := r.op.d
  match r.phase with
  | .counts =>
    match r.experts[r.next]? with
    | some e => publishWrite s die r (d.counts.toNat + 16 * r.next) (countBytes e)
    | none => nextPhase s die r .drops
  | .drops =>
    match (r.drops.take d.dcap.toNat)[r.next]? with
    | some c => publishWrite s die r (d.drops.toNat + 16 * r.next) (dropBytes d.k.toNat c)
    | none => nextPhase s die r .adds
  | .adds =>
    match r.experts[r.next]? with
    | some e => doneAdd s die r r.next e
    | none => nextPhase s die r .block
  | .block => blockStep s die r
  | _ => nextPhase s die r (if r.failed then .adds else .counts)

/-- Every scatter packet is answered, and every INV entry written unless one could not be. -/
def DealRun.scattered (r : DealRun) : Bool :=
  r.phase = .scatter && r.waitRes = 0 && (r.failed || (decide (r.choices.length ≤ r.next) && r.inv.isEmpty))
    && r.choices.all fun c => match c.out with
      | .sent .. => false
      | _ => true

/-- The operation that may publish, begun if it was cancelled: the completion block waits for the answers to the DONE
adds. -/
def publishable (s : State) (die : DieId) : Option (DealRun × State) :=
  match (s.die die).dealer.run, (s.die die).dealer.queue with
  | some r, _ =>
    if r.scattered ∨ r.phase = .counts ∨ r.phase = .drops ∨ r.phase = .adds ∨ (r.phase = .block ∧ r.pubs = 0) then
      some (r, s) else none
  | none, o :: _ => if o.cancelled then some (DealRun.init o .block, dealBegin s die o) else none
  | none, [] => none

/-- R190, R191. -/
def execDealPublish (die : DieId) (s : State) : Out :=
  match publishable s die with
  | some (r, t) => .next (publishStep t die r)
  | none => .refused (.notEnabled "DEAL_PUBLISH")

/-! ## undeal (R196) -/

/-- A contribution to a token: gate and row, none when its choice was dropped, or its failure. -/
inductive Contrib where
  | row (gate : Nat) (d : List Byte)
  | none
  | bad (c : Cause)

/-- What a step of the gathering has got so far; a fault that is not repaired comes with the contributions before it. -/
inductive Gathered where
  | ok (l : List Contrib) (s : State)
  | pause (s : State)
  | fail (l : List Contrib) (c : Cause)

/-- A contribution before those of the rest of the token. -/
def Gathered.after (x : Contrib) : Gathered → Gathered
  | .ok l s => .ok (x :: l) s
  | .pause s => .pause s
  | .fail l c => .fail (x :: l) c

def elemBytes (ufmt : Bool) : Nat := if ufmt then 2 else 4

/-- The row of a placed choice: a READ for each 256-byte block under the expert's key; an address beyond 56 bits loses its upper bits
(log 123). -/
def readSlot (die : DieId) (o : DealOp) (e : EMapEnt) : List (Nat × Nat) → State → List Byte → DealGot
  | [], s, got => .data got s
  | (a, n) :: l, s, got =>
    match dealAsk s die o tREAD e.acc e.key (a % 2 ^ 56) n [] with
    | .data d t => readSlot die o e l t (got ++ d)
    | x => x

/-- The contribution of choice `i`; `inv` is its INV entry. -/
def contribution (s : State) (die : DieId) (o : DealOp) (inv : Nat) (ch : List Byte) (k : Contrib → State → Gathered) :
    Gathered :=
  let x : BitVec 16 := BitVec.ofNat 16 (field ch 0 2)
  if inv = 0xFFFF_FFFF then k .none s
  else if x.msb ∨ o.d.e.toNat ≤ x.toNat then k (.bad cDealMapBad) s
  else
    match dealRead s die o (o.d.emap.toNat + 32 * x.toNat) 32 with
    | .pause t => .pause t
    | .fail c => .fail [] c
    | .data b t =>
      let e := parseEMap b
      if !e.usable o.d.rowb.toNat then k (.bad cDealMapBad) t
      else
        let a := e.base.toNat + inv * e.rstr.toNat
        match readSlot die o e (pieces 256 a o.d.rowb.toNat (o.d.rowb.toNat + 1)) t [] with
        | .data d u => k (.row (field ch 2 2) d) u
        | .pause u => .pause u
        | .fail c => k (.bad c) t

/-- The contributions of the choices `c` of a token, in ascending order. -/
def gatherAll (die : DieId) (o : DealOp) (inv ch : List Byte) : List Nat → State → Gathered
  | [], s => .ok [] s
  | c :: l, s =>
    contribution s die o (field inv (4 * c) 4) ((ch.drop (4 * c)).take 4) fun x t =>
      (gatherAll die o inv ch l t).after x

/-- Element `n` of a row in UFMT, as an FP32 code. -/
def rowElem (ufmt : Bool) (d : List Byte) (n : Nat) : Nat :=
  if ufmt then (fp32.ofNum .rne (bf16.decode (field d (2 * n) 2))).1 else field d (4 * n) 4

/-- acc of R196 over the contributions, one product rounded and then one sum rounded at a time. -/
def combine (ufmt : Bool) (n : Nat) (l : List Contrib) : Nat :=
  l.foldl (fun acc c => match c with
    | .row g d =>
      (fp32.add .rne acc (fp32.mul .rne (fp32.ofNum .rne (bf16.decode g)).1 (rowElem ufmt d n)).1).1
    | _ => acc) 0

/-- An element of the output row. -/
def outElem (ufmt : Bool) (v : Nat) : List Byte :=
  if ufmt then leBytes 2 (bf16.ofNum .rne (fp32.decode v)).1 else leBytes 4 v

/-- The first failure among the contributions. -/
def contribBad (l : List Contrib) : Option Cause :=
  l.findSome? fun c => match c with
    | .bad k => some k
    | _ => Option.none

/-- The output row of a token: default NaN in every element when a contribution failed. -/
def outRow (o : DealOp) (l : List Contrib) : List Byte :=
  (List.range (o.d.rowb.toNat / elemBytes o.d.ufmt)).flatMap fun n =>
    if (contribBad l).isSome then
      (if o.d.ufmt then leBytes 2 bf16.nanCode else leBytes 4 fp32.nanCode)
    else outElem o.d.ufmt (combine o.d.ufmt n l)

def gatherFailed (s : State) (die : DieId) (r : DealRun) (c : Cause) : State :=
  dealSet s die (some { r.note c with failed := true, phase := .block })

/-- The first cause stands for the operation (R196). -/
def DealRun.gathered (r : DealRun) (l : List Contrib) : DealRun :=
  match contribBad l with
  | some c => { r.note c with incomplete := true }
  | none => r

/-- The token is done. -/
def gatherWrite (s : State) (die : DieId) (r : DealRun) (l : List Contrib) : State :=
  let r1 := r.gathered l
  (dealWrite s die r.op (r.op.d.out.toNat + r.next * r.op.d.ostr.toNat) (outRow r.op l)).andThen
    (fun _ t => nextItem t die r1) (gatherFailed s die r1)

/-- One token (R196), or the end of the gathering. -/
def gatherStep (s : State) (die : DieId) (r : DealRun) : State :=
  let o := r.op
  let k := o.d.k.toNat
  if o.d.t.toNat ≤ r.next then dealSet s die (some { r with phase := .block })
  else
    (dealRead s die o (o.d.inv.toNat + 4 * (r.next * k)) (4 * k)).andThen
      (fun inv t => (dealRead t die o (o.d.choice.toNat + 4 * (r.next * k)) (4 * k)).andThen
        (fun ch u =>
          match gatherAll die o inv ch (List.range k) u with
          | .ok l v => gatherWrite v die r l
          | .pause v => v
          | .fail l c => gatherFailed u die (r.gathered l) c)
        (gatherFailed t die r))
      (gatherFailed s die r)

/-- The undeal that a Dealer may begin or goes on with. -/
def combinable (s : State) (die : DieId) : Option (DealRun × State) :=
  match (s.die die).dealer.run, (s.die die).dealer.queue with
  | some r, _ => if r.phase = .gather then some (r, s) else none
  | none, o :: _ =>
    if o.undeal && !o.cancelled && (s.ctx o.ctx).preempt.isNone then some (DealRun.init o .gather, dealBegin s die o) else none
  | none, [] => none

/-- R196. -/
def execUndealCombine (die : DieId) (s : State) : Out :=
  match combinable s die with
  | some (r, t) => .next (gatherStep t die r)
  | none => .refused (.notEnabled "UNDEAL_COMBINE")

/-! ## Interruption (R194) -/

/-- The operations of `sel` that are queued, or in Count, leave a Dealer: those in order of acceptance, and the rest of the
queue. An undeal that has begun runs to completion (log 59). -/
def takeDeals (s : State) (sel : DealOp → Bool) (die : DieId) : List DealOp × State :=
  let d := (s.die die).dealer
  let cur := match d.run with
    | some r => if sel r.op ∧ r.phase = .count then [r.op] else []
    | none => []
  (cur ++ d.queue.filter sel, modDealer s die fun x =>
    { queue := x.queue.filter fun o => !sel o
      run := if cur.isEmpty then x.run else none, memo := if cur.isEmpty then x.memo else [] })

/-- In order of acceptance (R194). -/
def byNum (l : List (DieId × DealOp)) : List (DieId × DealOp) := l.mergeSort fun a b => decide (a.2.num ≤ b.2.num)

/-- A context is pre-empted: what is queued, and an operation in Count, are saved in acceptance order. -/
def saveDeals (s : State) (ctx : CtxId) (die : DieId) : State :=
  let (mine, t) := takeDeals s (fun o => o.ctx = ctx && !o.cancelled) die
  t.modCtx ctx fun c => { c with savedOps := byNum (c.savedOps ++ mine.map fun o => (die, o)) }

/-- The operations are not performed; their Dealer writes STATUS CANCELLED and SEQ, before it begins another operation (R191, R194;
log 136). -/
def putCancelled (die : DieId) (s : State) (l : List DealOp) : State :=
  let l := (byNum (l.map fun o => (die, o))).map Prod.snd
  modDealer s die fun x => { x with queue := l.map (fun o => { o with cancelled := true }) ++ x.queue }

/-- The operations that a job stop, or the end of their context, removes: queued, in Count, or saved (R194, R218). -/
def cancelDeals (s : State) (sel : DealOp → Bool) (die : DieId) : State :=
  let (gone, t) := takeDeals s (fun o => sel o && !o.cancelled) die
  let saved := (List.finRange 64).flatMap fun c => (t.ctx c).savedOps.filterMap fun o =>
    if o.1 = die ∧ sel o.2 = true then some o.2 else none
  putCancelled die
    { t with ctxs := t.ctxs.map fun c => { c with savedOps := c.savedOps.filter fun o => !(o.1 == die && sel o.2) } }
    (gone ++ saved)

/-- A Dealer holds an operation of the context. -/
def dealsOf (s : State) (ctx : CtxId) : Bool :=
  s.dies.toList.any fun d => d.dealer.queue.any (fun o => o.ctx = ctx)
    || (match d.dealer.run with
      | some r => decide (r.op.ctx = ctx)
      | none => false)

/-- A Deal operation of a launch is queued, saved, or in Count: a stop of its job still cancels it (R194). -/
def dealWaits (s : State) (li : Nat) : Bool :=
  s.dies.toList.any (fun d => d.dealer.queue.any (fun o => o.launch = some li && !o.cancelled)
      || (match d.dealer.run with
        | some r => decide (r.op.launch = some li) && r.phase = .count
        | none => false))
    || s.ctxs.toList.any fun c => c.savedOps.any fun o => o.2.launch = some li

/-- A Dealer performs an operation of the context. -/
def dealRuns (s : State) (ctx : CtxId) : Bool :=
  s.dies.toList.any fun d => match d.dealer.run with
    | some r => decide (r.op.ctx = ctx)
    | none => false

end Sys2Proof.Machine
end

