-- ==== Sys2Proof/Machine/Queues.lean ====
section
/-! DEFINITION. User queues: QCBs (R229), slots, the two copies of the queue tables and of the pending arrays and kick filters
(R239), kicks (R228), and HELD (R229). -/

namespace Sys2Proof.Machine

open Sys2Proof

/-! ## QCBs (R229) -/

def QState.code : QState → Nat
  | .free => 0
  | .mapped => 1
  | .active => 2
  | .errored => 3

def qstateOf (n : Nat) : QState := match n with
  | 0 => .free
  | 1 => .mapped
  | 2 => .active
  | _ => .errored

/-- A QCB as 128 bytes. -/
def Qcb.bytes (q : Qcb) : List Byte :=
  leBytes 8 q.ring.toNat
    ++ leBytes 8 (q.log2n.toNat + q.prio.toNat * 2 ^ 5 + q.eprio.toNat * 2 ^ 8 + q.qid.toNat * 2 ^ 16 + q.ctx.val * 2 ^ 32
        + q.state.code * 2 ^ 40)
    ++ leBytes 8 (q.head.toNat + q.prod.toNat * 2 ^ 32) ++ leBytes 8 q.svctime.toNat ++ leBytes 8 q.held.toNat
    ++ leBytes 8 q.qseq.toNat ++ leBytes 80 0

def parseQcb (b : List Byte) : Qcb :=
  let w1 := field b 8 8
  { ring := BitVec.ofNat 56 (field b 0 8), log2n := BitVec.ofNat 5 w1, prio := BitVec.ofNat 3 (bits w1 5 3)
    eprio := BitVec.ofNat 3 (bits w1 8 3), qid := BitVec.ofNat 12 (bits w1 16 12), ctx := Fin.ofNat 64 (bits w1 32 6)
    state := qstateOf (bits w1 40 3), head := BitVec.ofNat 32 (field b 16 4), prod := BitVec.ofNat 32 (field b 20 4)
    svctime := BitVec.ofNat 64 (field b 24 8), held := BitVec.ofNat 64 (field b 32 8)
    qseq := BitVec.ofNat 64 (field b 40 8) }

/-- R348: a nonzero reserved bit, LOG2N outside its range, a reserved STATE, or no such context. -/
def qcbBad (s : State) (b : List Byte) : Bool :=
  let w1 := field b 8 8
  field b 7 1 != 0 || bits w1 11 5 != 0 || bits w1 28 4 != 0 || bits w1 38 2 != 0 || bits w1 43 21 != 0
    || (List.range 10).any (fun i => field b (48 + 8 * i) 8 != 0)
    || decide (bits w1 0 5 < 4) || decide (16 < bits w1 0 5) || decide (3 < bits w1 40 3)
    || !(s.ctx (Fin.ofNat 64 (bits w1 32 6))).alive

/-! ## Slots, summaries and kicks (R228, R230) -/

def setSum (w : W64) (i : Nat) (b : Bool) : W64 := setBitAt w i b

/-- The slot to which a queue is mapped. -/
def slotOf (s : State) (ctx : CtxId) (qid : BitVec 12) : Option (Fin 64) :=
  (List.finRange 64).find? fun i =>
    (s.slot i).q.state != .free && (s.slot i).q.ctx = ctx && (s.slot i).q.qid = qid

def modSlot (s : State) (i : Fin 64) (f : Qcb → Qcb) : State := s.setSlot i { s.slot i with q := f (s.slot i).q }

/-- Changes the queue-table entry of a queue. -/
def modQueue (s : State) (ctx : CtxId) (qid : BitVec 12) (f : UserQueue → UserQueue) : State :=
  s.modCtx ctx fun c => { c with queues := c.queues.map fun q => if q.qid = qid then f q else q }

/-- The table entry of a queue. -/
def userQueue (s : State) (ctx : CtxId) (qid : BitVec 12) : Option UserQueue :=
  (s.ctx ctx).queues.find? fun u => u.qid = qid

/-- R239: a read of a queue's table entry that meets one bad copy restores it from the other, and the owner is told. -/
def restoreQcb (s : State) (ctx : CtxId) (qid : BitVec 12) : State :=
  match userQueue s ctx qid with
  | none => s
  | some u =>
    if u.aBad && !u.bBad then
      emitQueue (modQueue s ctx qid fun x => { x with a := x.b, aBad := false }) ctx cQueueTableRestored qid
    else if u.bBad && !u.aBad then
      emitQueue (modQueue s ctx qid fun x => { x with b := x.a, bBad := false }) ctx cQueueTableRestored qid
    else s

/-- The same for the pending array and kick filter of a context, read for queue `qid` (R239; log 138). -/
def restoreKicks (s : State) (ctx : CtxId) (qid : BitVec 12) : State :=
  let c := s.ctx ctx
  if c.tabA.bad && !c.tabB.bad then
    emitQueue (s.modCtx ctx fun x => { x with tabA := x.tabB }) ctx cQueueTableRestored qid
  else if c.tabB.bad && !c.tabA.bad then
    emitQueue (s.modCtx ctx fun x => { x with tabB := x.tabA }) ctx cQueueTableRestored qid
  else s

/-- A queue's table entry becomes `q`: the entry is read for its QSEQ, then copy A is written, then copy B (R239). -/
def putQcb (s : State) (q : Qcb) : State :=
  modQueue (restoreQcb s q.ctx q.qid) q.ctx q.qid fun u => { u with a := q, b := q, aBad := false, bBad := false }

/-- The QCB in the queue tables of a queue that is in no slot. -/
def tableQcb (s : State) (ctx : CtxId) (qid : BitVec 12) : Option Qcb := (userQueue s ctx qid).bind UserQueue.live

/-- An update of the QCB of a queue that is in no slot (R229, R239). -/
def modTable (s : State) (ctx : CtxId) (qid : BitVec 12) (f : Qcb → Qcb) : State :=
  match tableQcb s ctx qid with
  | some q => putQcb s { f q with qseq := q.qseq + 1 }
  | none => s

/-- Changes the QCB of a queue, in its slot or in the queue tables (R229). -/
def modQcb (s : State) (ctx : CtxId) (qid : BitVec 12) (f : Qcb → Qcb) : State :=
  match slotOf s ctx qid with
  | some i => modSlot s i f
  | none => modTable s ctx qid f

/-- R228: a kick of a queue with producer index `prod`; PROD is the last index kicked, wherever the QCB stands (R229). -/
def kick (s : State) (ctx : CtxId) (qid : BitVec 12) (prod : W32) : State :=
  let s1 := modQcb (restoreKicks s ctx qid) ctx qid fun q => { q with prod := prod }
  match slotOf s1 ctx qid with
  | some i => { s1 with slotSum := setSum s1.slotSum i.val true }
  | none =>
    { s1.modCtx ctx (fun c => c.setPending (setBitAt c.pending qid.toNat true)) with
      ctxSum := setSum s1.ctxSum ctx.val true }

/-! ## HELD (R229) -/

/-- The queue that a launch came from, if it came from one (R229). -/
def launchQueue (s : State) (li : Nat) : Option (CtxId × BitVec 12) :=
  (s.launch? li).bind fun l => match l.src with
    | .queue (some q) => some (l.ctx, q)
    | _ => none

/-- The launch is dispatched or over: HELD of its queue is 0 again, in its slot or in the queue tables (R229). -/
def heldOver (s : State) (li : Nat) : State :=
  match launchQueue s li with
  | some x => modQcb s x.1 x.2 fun q => { q with held := 0 }
  | none => s

end Sys2Proof.Machine
end

