-- ==== Sys2Proof/Machine/Sched.lean ====
section
/-! DEFINITION. Scheduling: the dispatcher's choice (R51, R59, R60), splits (R50), the pending-launch pool (R63), walker
state under pre-emption (R52), write-back and resumption of gangs (R24, R31, R214), the job stop (R218) and pre-emption
(R210). -/

namespace Sys2Proof.Machine

open Sys2Proof

/-! ## Candidates (R59, R60) -/

/-- DISPAGE.INTERVAL of a die in ns. -/
def ageNs (s : State) (die : DieId) : Nat := bits (s.die die).dispage.toNat 0 20 * 1000

/-- The effective priority of a launch on a die. -/
def effPrio (s : State) (die : DieId) (li : Nat) : Nat :=
  match s.launch? li with
  | none => 0
  | some l => min 7 (l.r.prio.toNat + (s.time - l.lastDisp) / ageNs s die)

/-- A candidate's launch, whether it is a resumable gang, and its place among those of one launch. -/
def candKey (s : State) (c : DispCand) : Nat × Bool × Nat :=
  match c with
  | .gang g => match s.gang? g with
    | some x => (x.launch, true, x.tindex.toNat)
    | none => (0, true, 0)
  | .task l i => (l, false, i)
  | .walker i l => (l, false, i.val)

/-- Candidate `a` comes before `b`: effective priority, acceptance, resumable gangs first, task index (R34, R59). -/
def candBefore (s : State) (die : DieId) (a b : DispCand) : Bool :=
  let ka := candKey s a
  let kb := candKey s b
  let pa := effPrio s die ka.1
  let pb := effPrio s die kb.1
  if pa ≠ pb then decide (pb < pa)
  else if ka.1 ≠ kb.1 then decide (ka.1 < kb.1)
  else if ka.2.1 ≠ kb.2.1 then ka.2.1
  else decide (ka.2.2 ≤ kb.2.2)

def bestCand (s : State) (die : DieId) : List DispCand → Option DispCand
  | [] => none
  | c :: l =>
    match bestCand s die l with
    | none => some c
    | some d => if candBefore s die c d then some c else some d

/-- The launch runs and its context is not being pre-empted. -/
def launchOpen (s : State) (li : Nat) : Bool :=
  match s.launch? li with
  | none => false
  | some l => l.phase = .running && (s.ctx l.ctx).preempt.isNone

/-- The candidates on a die. -/
def candidates (s : State) (die : DieId) : List DispCand :=
  (s.gangs.zipIdx.filterMap fun g => if g.1.die = die ∧ resumable s g.1 = true then some (.gang g.2) else none)
    ++ ((s.die die).ready.filterMap fun t => if launchOpen s t.launch then some (.task t.launch t.idx) else none)
    ++ ((activeRanges s die).filterMap fun r => if launchOpen s r.launch then some (.walker r.walker r.launch) else none)

/-- A new task of a launch gives way to the launch's resumable gangs on the die (R34). -/
def orGang (s : State) (die : DieId) (cs : List DispCand) (k : DispCand) : DispCand :=
  let kk := candKey s k
  if kk.2.1 then k
  else (bestCand s die (cs.filter fun c => (candKey s c).2.1 && (candKey s c).1 == kk.1)).getD k

/-- The candidate chosen: the one that SPs are held for, if it still stands, or the best one (R34, R59). -/
def chosen (s : State) (die : DieId) : Option DispCand :=
  let cs := candidates s die
  match (s.die die).keep with
  | some k => if cs.contains k then some (orGang s die cs k) else bestCand s die cs
  | none => bestCand s die cs

/-- The gang size of a candidate. -/
def candSize (s : State) (c : DispCand) : Nat :=
  ((s.launch? (candKey s c).1).map fun l => l.r.gsize).getD 1

def setKeep (s : State) (die : DieId) (k : Option DispCand) : State := s.modDie die fun d => { d with keep := k }

/-! ## The dispatch decision -/

/-- A ready task of a GRAPH launch starts on a die (R55); `from_` is the die whose ready queue held it. -/
def startTask (s : State) (from_ die : DieId) (place : Placement) (li idx : Nat) : State :=
  match s.launch? li with
  | none => s
  | some l =>
    match l.tasks[idx]? with
    | none => s
    | some t =>
      let s1 := s.modDie from_ fun d => { d with ready := d.ready.filter fun x => !(x.launch = li && x.idx = idx) }
      formGang s1 die place li l idx t.x t.y t.z t.w (if t.args = 0 then l.r.args else t.args)

/-- A walker hands out its next tile (R49). -/
def startTile (s : State) (die : DieId) (place : Placement) (r : Range) : State :=
  match s.launch? r.launch with
  | none => s
  | some l =>
    match takeTile s r with
    | (none, t) => checkFinal t r.launch
    | (some (i, x), t) =>
      formGang t die place r.launch l i (BitVec.ofNat 16 x.x) (BitVec.ofNat 16 x.y) (BitVec.ofNat 16 x.z)
        (BitVec.ofNat 16 x.w) l.r.args

/-- The chosen candidate runs. -/
def runCand (s : State) (die : DieId) (place : Placement) (c : DispCand) : State :=
  match c with
  | .gang g => resumeGang s g die place
  | .task l i => startTask s die die place l i
  | .walker i _ =>
    match (activeRanges s die).find? fun r => r.walker = i with
    | some r => startTile s die place r
    | none => s

/-- The largest range of a launch over all dies, ties to the lower die, then the lower walker (R51). -/
def largestRange (s : State) (li : Nat) : Option Range :=
  (((List.finRange 4).flatMap (activeRanges s)).filter fun r => r.launch = li).foldl
    (fun b r => match b with
      | none => some r
      | some x => if x.stop - x.next < r.stop - r.next then some r else some x) none

/-- The range that an idle SP of a die steals from (R51). -/
def victim (s : State) (die : DieId) : Option Range :=
  let n := (freeSps s die).length
  let ls := (List.range s.launches.length).filter fun li =>
    launchOpen s li && ((s.launch? li).map fun l => decide (l.r.kind = 0) && decide (l.r.gsize ≤ n)).getD false
  let order := ls.mergeSort fun a b =>
    decide (effPrio s die b < effPrio s die a) || (effPrio s die a == effPrio s die b && decide (a ≤ b))
  (order.filterMap (largestRange s)).find? (splittable s)

/-- The best ready task of another die that fits, dies in ascending number (R59). -/
def otherReady (s : State) (die : DieId) : Option (DieId × DispCand) :=
  ((List.finRange 4).filter fun d => d != die).findSome? fun d =>
    let cs := (s.die d).ready.filterMap fun t => if launchOpen s t.launch then some (.task t.launch t.idx) else none
    match bestCand s die cs with
    | some c => if candSize s c ≤ (freeSps s die).length then some (d, c) else none
    | none => none

/-- R51: the thief reserves a FREE walker of its die and sends its request to the donor. -/
def askSplit (s : State) (die : DieId) (w : Fin 16) (r : Range) : State :=
  (setWalker s die w .reserved).modDev fun d => { d with splits := d.splits ++ [⟨r.die, r.walker, die, w⟩] }

/-- What a dispatch decision comes to. -/
inductive Decision where
  | run (c : DispCand)
  | hold (c : DispCand)
  | split (w : Fin 16) (r : Range)
  | steal (d : DieId) (c : DispCand)
  | nothing
  deriving DecidableEq, Repr

/-- R59. -/
def decision (s : State) (die : DieId) : Decision :=
  if (freeSps s die).isEmpty then .nothing
  else
    match chosen s die with
    | some c => if candSize s c ≤ (freeSps s die).length then .run c else .hold c
    | none =>
      match victim s die, freeWalker (s.die die) with
      | some r, some w => .split w r
      | _, _ =>
        match otherReady s die with
        | some x => .steal x.1 x.2
        | none => .nothing

/-- R59: with SPs free, the dispatcher of a die chooses; `place` says which free SPs the gang takes (R28). -/
def execDispatchDecision (die : DieId) (place : Placement) (s : State) : Out :=
  match decision s die with
  | .run c =>
    if placementOk s die (candSize s c) place then .next (runCand (setKeep s die none) die place c)
    else .refused (.notEnabled "DISPATCH_DECISION")
  | .hold c => .next (setKeep s die (some c))
  | .split w r => .next (askSplit s die w r)
  | .steal d c =>
    if placementOk s die (candSize s c) place then
      .next (match c with
        | .task l i => startTask s d die place l i
        | _ => s)
    else .refused (.notEnabled "DISPATCH_DECISION")
  | .nothing => .refused (.notEnabled "DISPATCH_DECISION")

/-- R28, step 6. -/
def execGangRelease (gang : Nat) (s : State) : Out :=
  match s.gang? gang with
  | some g => if gangFormed s g then .next (releaseGang s gang) else .refused (.notEnabled "GANG_RELEASE")
  | none => .refused (.notEnabled "GANG_RELEASE")

/-! ## Splits (R49, R50, R52) -/

/-- The thief's die has capacity for the launch (R48: a die without it receives no split). -/
def splitFits (s : State) (r : Range) (die : DieId) : Bool :=
  ((s.launch? r.launch).map fun l => capacity s l.r.gsize die != 0).getD false

/-- The donor's answer (R50): it gives the upper half, or nothing when it is not ACTIVE or too short, or the thief's die has
lost its capacity (R48). -/
def donorSplit (s : State) (q : SplitReq) : State :=
  let give (x : Option (Nat × Nat × Nat)) (t : State) : State :=
    t.modDev fun d =>
      { d with splits := d.splits.filter (fun y => y != q), grants := d.grants ++ [⟨q.die, q.walker, x⟩] }
  match (activeRanges s q.donorDie).find? fun r => r.walker = q.donor with
  | none => give none s
  | some r =>
    if splittable s r && splitFits s r q.die then
      give (some (r.launch, r.mid, r.stop)) (setWalker s q.donorDie q.donor (.active r.launch r.next r.mid))
    else give none s

/-- R50: the donor performs a split request. -/
def execSplit (donorDie : DieId) (donor : Fin 16) (thiefDie : DieId) (thief : Fin 16) (s : State) : Out :=
  let q : SplitReq := ⟨donorDie, donor, thiefDie, thief⟩
  if s.dev.splits.contains q then .next (donorSplit s q) else .refused (.notEnabled "SPLIT")

/-- R50: the reserved walker loads the granted range, or is FREE again. A range of a context that is being pre-empted is
FROZEN at once (R52); one whose die has lost its capacity meanwhile moves to a die that has some (R48). -/
def grantLoad (s : State) (g : SplitGrant) : State :=
  let s1 := s.modDev fun d => { d with grants := d.grants.erase g }
  match g.range with
  | none => setWalker s1 g.die g.walker .free
  | some (li, lo, hi) =>
    match s.launch? li with
    | none => setWalker s1 g.die g.walker .free
    | some l =>
      captureAll
        (if capacity s l.r.gsize g.die = 0 then
          (setWalker s1 g.die g.walker .free).modCtx l.ctx fun c =>
            { c with saved := c.saved ++ [⟨li, lo, hi, g.walker.val, g.die⟩] }
        else
          setWalker s1 g.die g.walker (loadedWalker s l.ctx li lo hi))

/-- R50. -/
def execSplitGrant (die : DieId) (walker : Fin 16) (s : State) : Out :=
  match s.dev.grants.find? fun g => g.die = die && g.walker = walker with
  | some g => .next (grantLoad s g)
  | none => .refused (.notEnabled "SPLIT_GRANT")

/-- The running launches of a context. -/
def ctxRunning (s : State) (ctx : CtxId) : List Nat :=
  (List.range s.launches.length).filter fun li => (s.launch? li).any fun l => l.ctx = ctx && l.phase = .running

/-- A captured range goes to a FREE walker on its die, or on any die that has capacity for the launch (R48, R52). -/
def restoreRange (s : State) (w : WalkerSave) : Option State :=
  let g := ((s.launch? w.launch).map fun l => l.r.gsize).getD 1
  ((w.die :: List.finRange 4).filter fun d => capacity s g d != 0).findSome? fun d =>
    (freeWalker (s.die d)).map fun i => setWalker s d i (.active w.launch w.next w.stop)

def restoreRanges (s : State) : List WalkerSave → State × List WalkerSave
  | [] => (s, [])
  | w :: l =>
    match restoreRange s w with
    | some t => restoreRanges t l
    | none =>
      let r := restoreRanges s l
      (r.1, w :: r.2)

/-- The READY tasks of launch `li` that stand in no ready queue: a gang that resumed may have dealt some before (R52). -/
def readyIdx (s : State) (li : Nat) (l : Launch) : List Nat :=
  (l.tasks.zipIdx.filter fun t =>
    t.1.status = .ready && !(s.dies.toList.any fun d => d.ready.contains ⟨li, t.2⟩)).map Prod.snd

/-- R52: the ready queues of a context are rebuilt from the task records that read READY, dealt as at dispatch (R47). -/
def rebuildReady (s : State) (ctx : CtxId) : State :=
  (ctxRunning s ctx).foldl (fun t li =>
    match t.launch? li with
    | none => t
    | some l =>
      let w := dieWeights t l.r.gsize
      dealReady t li ((List.finRange 4).filter fun d => (w[d.val]?).getD 0 != 0) (readyIdx t li l) 0) s

/-- A saved pool entry returns to its die's pool, or stays saved while that pool is full (R7, R52; log 134). -/
def restoreEntry (ctx : CtxId) (s : State) (x : DieId × Nat) : State :=
  if (s.die x.1).pool.length < poolSize then s.modDie x.1 fun d => { d with pool := d.pool ++ [x.2] }
  else s.modCtx ctx fun c => { c with savedPool := c.savedPool ++ [x] }

/-- R52: saved pool entries return to their pools in order. -/
def restorePool (s : State) (ctx : CtxId) : State :=
  (s.ctx ctx).savedPool.foldl (restoreEntry ctx) (s.modCtx ctx fun c => { c with savedPool := [] })

/-- R52, R194: captured walkers, pool entries, ready queues and the saved Dealer operations of launches that have no gang
to resume come back. -/
def restoreCtx (s : State) (ctx : CtxId) : State :=
  let (t, rest) := restoreRanges s (s.ctx ctx).saved
  let u := restorePool t ctx
  let v := if (s.ctx ctx).rebuild then rebuildReady u ctx else u
  requeueDeals (v.modCtx ctx fun c => { c with saved := rest, rebuild := false }) ctx
    (fun o => !(o.launch.map (hasGang s)).getD false) id

/-- Something that a pre-emption has captured waits to come back at once. -/
def restorable (s : State) (ctx : CtxId) : Bool :=
  let c := s.ctx ctx
  c.preempt.isNone && (!c.saved.isEmpty || c.savedPool.any (fun x => decide ((s.die x.1).pool.length < poolSize)) || c.rebuild
    || c.savedOps.any fun o => !(o.2.launch.map (hasGang s)).getD false)

/-- R52. -/
def execWalkerRestore (ctx : CtxId) (s : State) : Out :=
  if restorable s ctx then .next (restoreCtx s ctx) else .refused (.notEnabled "WALKER_RESTORE")

/-! ## The pending-launch pool (R63, R311) -/

/-- Launches pushed by one strand start in the order pushed, whichever pools they stand in: an entry waits for those that
its strand pushed before it. -/
def poolTurn (s : State) (li : Nat) : Bool :=
  match s.launch? li with
  | none => false
  | some l =>
    (s.ctx l.ctx).preempt.isNone
      && (s.launches.take li).all fun k => !(k.pusher.isSome && k.pusher == l.pusher && k.phase = .accepted && !k.gone)

/-- The entry leaves the pool. -/
def unpool (s : State) (die : DieId) (li : Nat) : State :=
  s.modDie die fun d => { d with pool := d.pool.filter (· != li) }

/-- What the dispatch of a pool entry leads to, if it changes anything. -/
def poolTry (s : State) (die : DieId) (li : Nat) : Option State :=
  if !poolTurn s li then none
  else
    match dispatchLaunch s li with
    | .ok t => some (unpool t die li)
    | .predFailed t => some (unpool t die li)
    | .rejected _ _ t => some (unpool t die li)
    | .pause new t => if new then some t else none
    | _ => none

/-- R311: the die's hardware dispatches the first entry that can be dispatched, or asks for a page that it needs. -/
def execPoolDispatch (die : DieId) (s : State) : Out :=
  match (s.die die).pool.findSome? (poolTry s die) with
  | some t => .next t
  | none => .refused (.notEnabled "POOL_DISPATCH")

/-! ## Write-back and resumption (R24, R31, R214) -/

/-- Every seat is at a suspension point or PARKED, with nothing in flight (R31); the save of a pre-empted context's gang
waits for the Dealers that have begun an operation of the context (R194). -/
def gangSaved (s : State) (g : Gang) : Bool :=
  g.live && !g.seats.isEmpty && ((s.ctx g.ctx).preempt.isNone || !dealRuns s g.ctx) && g.seats.all (fun q =>
      match q.sp with
      | none => false
      | some sp =>
        let p := s.sp sp
        p.settled && !(s.dev.txns.any fun t => t.who.onSp sp)
          && match p.run with
            | .stopped _ => true
            | .parked => true
            | _ => false)
    && g.seats.any fun q => match q.sp with
      | none => false
      | some sp => (s.sp sp).run != .parked

/-- The gang's records and save areas are written and its SPs fall free (R24, R31, R32); a gang that was stopped at once rolls back
(R211). -/
def writeBack (s : State) (gi : Nat) : State :=
  match s.gang? gi with
  | none => s
  | some g => if g.seats.any (seatForced s) then rollbackGang s gi else leaveSps (saveSeats s gi g g.size) gi true

/-- R31. -/
def execGangWriteBack (gang : Nat) (s : State) : Out :=
  match s.gang? gang with
  | some g => if gangSaved s g then .next (writeBack s gang) else .refused (.notEnabled "GANG_WRITE_BACK")
  | none => .refused (.notEnabled "GANG_WRITE_BACK")

/-- Whether the dispatcher's order lets the gang resume on this die: on its own die it is the one chosen, another die takes
it only when that die has no candidate of its own (R59). -/
def resumeTurn (s : State) (gang : Nat) (g : Gang) (die : DieId) : Bool :=
  if die = g.die then chosen s die = some (.gang gang) else (chosen s die).isNone

/-- R214: a resumable gang takes SPs, on its die or another (R28). -/
def execGangResume (gang : Nat) (die : DieId) (place : Placement) (s : State) : Out :=
  match s.gang? gang with
  | some g =>
    if resumable s g && resumeTurn s gang g die && placementOk s die g.size place then
      .next (resumeGang (if die = g.die then setKeep s die none else s) gang die place)
    else .refused (.notEnabled "GANG_RESUME")
  | none => .refused (.notEnabled "GANG_RESUME")

/-- The repair of a FAULTED seat is complete: nothing that it needs is left to page in. -/
def seatRepaired (s : State) (g : Gang) (q : Seat) : Bool :=
  let recs := (q.area.map SaveArea.recs).getD []
  !repairable s g.ctx q.fva.toNat q.cause && recs.all fun r => recordFix s g.ctx r != .pageIn

/-- FAULTED becomes SUSPENDED, CAUSE 0 (R24). -/
def repairGang (s : State) (gi : Nat) : State :=
  match s.gang? gi with
  | none => s
  | some g =>
    writeRecords (s.modSeats gi fun q =>
      if q.status = .faulted then { q with status := .suspended, cause := 0 } else q) gi g.size

/-- R24: Equinox reports the repair complete. -/
def execRepairComplete (gang : Nat) (s : State) : Out :=
  match s.gang? gang with
  | some g =>
    if g.live && g.seats.any (fun q => q.status = .faulted)
        && g.seats.all fun q => q.status != .faulted || seatRepaired s g q then .next (repairGang s gang)
    else .refused (.notEnabled "REPAIR_COMPLETE")
  | none => .refused (.notEnabled "REPAIR_COMPLETE")

/-! ## Pre-emption of a context (R52, R194, R210) -/

/-- Every walker of the context is frozen (R52). -/
def freezeWalkers (s : State) (ctx : CtxId) : State :=
  { s with dies := s.dies.map fun d => { d with walkers := d.walkers.map fun w =>
      match w with
      | .active l n e => if (s.launch? l).any fun x => decide (x.ctx = ctx) then .frozen l n e else w
      | w => w } }

/-- A gang of the context that stands on SPs. -/
def residentGangs (s : State) (ctx : CtxId) : List Nat :=
  s.gangs.zipIdx.filterMap fun g =>
    if g.1.live ∧ g.1.ctx = ctx ∧ (g.1.seats.any fun q => q.sp.isSome) then some g.2 else none

/-- The launch belongs to the context. -/
def launchOf (s : State) (ctx : CtxId) (li : Nat) : Bool := (s.launch? li).any fun l => decide (l.ctx = ctx)

/-- Saves the pool entries of a context, and empties the ready queues of its tasks, which stay READY in their records
(R52). -/
def savePool (s : State) (ctx : CtxId) : State :=
  let mine := (List.finRange 4).flatMap fun d => ((s.die d).pool.filter (launchOf s ctx)).map fun li => (d, li)
  let had := s.dies.toList.any fun d => d.ready.any fun t => launchOf s ctx t.launch
  ({ s with dies := s.dies.map fun d =>
      { d with pool := d.pool.filter fun li => !launchOf s ctx li
               ready := d.ready.filter fun t => !launchOf s ctx t.launch } } : State).modCtx ctx fun c =>
    { c with savedPool := c.savedPool ++ mine, rebuild := c.rebuild || had }

/-- What is queued of a pre-empted context beside its gangs: Dealer operations, pool entries, ready tasks (R52, R194). -/
def saveQueued (s : State) (ctx : CtxId) : State :=
  savePool ((List.finRange 4).foldl (fun t d => saveDeals t ctx d) s) ctx

/-- A pre-emption request: walkers frozen and captured, what is queued saved, a save of every gang begun. -/
def requestPreempt (s : State) (ctx : CtxId) : State :=
  let s1 := s.modCtx ctx fun c => { c with preempt := some ⟨s.time, false⟩ }
  let s3 := saveQueued (captureWalkers (freezeWalkers s1 ctx) ctx) ctx
  (residentGangs s3 ctx).foldl (fun t g => t.modGang g fun x => { x with saveAt := some (x.saveAt.getD s.time) }) s3

/-! ## Stopping a job (R218) -/

/-- The launches of the jobs of `seed`: launches bound to one of them as predecessor or pushed by one of its tasks,
transitively, in order of acceptance, which puts producers first. -/
def jobOf (s : State) (seed : List Nat) : List Nat :=
  (List.range s.launches.length).foldl (fun acc li =>
    if seed.contains li then acc ++ [li]
    else
      match s.launch? li with
      | none => acc
      | some l =>
        if (l.binds.any fun b => acc.contains b.1) || (l.parent.map acc.contains).getD false then acc ++ [li]
        else acc) []

/-- The live gangs of a launch fail with the cause, resident or saved; no seat has faulted, and seat 0's record carries it (R24, R218;
log 140). -/
def failGangs (s : State) (li : Nat) (c : Cause) : State :=
  (List.range s.gangs.length).foldl (fun t gi =>
    match t.gang? gi with
    | some g => if g.live && g.launch = li then failGang t gi 0 c else t
    | none => t) s

/-- A READY task of a stopped launch fails, and its successors are poisoned (R57, R218). -/
def stopTask (c : Cause) (li : Nat) (s : State) (idx : Nat) : State :=
  match (s.launch? li).bind fun l => l.tasks[idx]? with
  | some t =>
    if t.status = .ready then poison (modTask s li idx fun t => { t with status := .failed, cause := c }) li idx else s
  | none => s

/-- The launch leaves every pool and ready queue, saved ones too. -/
def unqueue (s : State) (li : Nat) : State :=
  { s with
    dies := s.dies.map fun d => { d with pool := d.pool.filter (· != li), ready := d.ready.filter fun t => t.launch != li }
    ctxs := s.ctxs.map fun x => { x with savedPool := x.savedPool.filter fun e => e.2 != li } }

/-- Dealer operations of a launch that have not got beyond Count are CANCELLED (R194). -/
def cancelLaunchDeals (s : State) (li : Nat) : State :=
  (List.finRange 4).foldl (fun t d => cancelDeals t (fun o => o.launch = some li) d) s

/-- Step 2 to 4 of R218 for one launch; of one that is final only Dealer operations can be left. -/
def stopLaunch (c : Cause) (s : State) (li : Nat) : State :=
  match s.launch? li with
  | none => s
  | some l =>
    let s1 := cancelLaunchDeals s li
    if l.phase = .done ∨ l.phase = .failed then s1
    else
      let s2 := unqueue ((clearWalkers s1 li).modLaunch li fun x => { x with stopped := true }) li
      let s2 := if l.phase = .accepted then heldOver s2 li else s2
      endWith ((List.range l.tasks.length).foldl (stopTask c li) (failGangs s2 li c)) li c

/-- R218: halts jobs in topological order. -/
def stopJobs (s : State) (seed : List Nat) (c : Cause) : State := (jobOf s seed).foldl (stopLaunch c) s

end Sys2Proof.Machine
end

