-- ==== Sys2Proof/Machine/Eqx.lean ====
section
/-! DEFINITION. Equinox cores: packets and hardware queue slots (R226 to R231), and the six custom instructions (R222, R289,
R298, R345 to R349, R370). -/

namespace Sys2Proof.Machine

open Sys2Proof

/-! ## Queues and packets (R226, R227) -/

/-- R227: the queue of a slot becomes ERRORED and its owner gets an event record. -/
def queueErrored (s : State) (i : Fin 64) (c : Cause) : State :=
  let q := (s.slot i).q
  emitQueue (modSlot s i fun x => { x with state := .errored }) q.ctx c q.qid

/-! ## bfext (R289) -/

/-- R289. -/
def execBfext (r : RArgs) (s : State) : Out :=
  let c := s.xreg r.rs2
  let lsb := c.toNat % 64
  let w := bits c.toNat 6 6 + 1
  .next (s.eqxRetire r.rd (BitVec.ofNat 64 (bits (s.xreg r.rs1).toNat lsb w)))

/-! ## qfetch (R345, R346) -/

def packetType (b : List Byte) : Nat := bits (field b 4 1) 0 4

/-- HSEQ or TSEQ differs from the expected value (R227). -/
def packetTorn (b : List Byte) (e : W32) : Bool := field b 0 4 != e.toNat || field b 60 4 != e.toNat

/-- A reserved TYPE or a nonzero reserved bit (R226). -/
def packetBad (b : List Byte) : Bool :=
  let t := packetType b
  (t != 1 && t != 2) || bits (field b 4 4) 4 28 != 0 || field b 56 4 != 0
    || (if t = 2 then field b 10 6 != 0 else (List.range 4).any fun i => field b (16 + 8 * i) 8 != 0)

def packetRslt (b : List Byte) : Nat := field b 48 8

/-- CODE of a COMMAND packet; 0 stands for a LAUNCH packet. -/
def packetCode (b : List Byte) : BitVec 16 := if packetType b = 1 then 0 else BitVec.ofNat 16 (field b 8 2)

/-- The operands of a packet: RSLT and ARG0 to ARG3; the LREC of a LAUNCH packet stands as ARG0 (R226). -/
def Fetched.cmd (f : Fetched) : Cmd :=
  let w (o : Nat) : W64 := BitVec.ofNat 64 (field f.data o 8)
  if packetType f.data = 1 then ⟨f.ctx, f.qid, w 48, w 8, 0, 0, 0⟩ else ⟨f.ctx, f.qid, w 48, w 16, w 24, w 32, w 40⟩

/-- A valid packet is taken: it goes to the buffer, if there is one, and waits for Equinox to act on it (R227). -/
def takePacket (s : State) (i : Fin 64) (buf : Option Nat) (b : List Byte) : State :=
  let q := (s.slot i).q
  let s1 := s.setSlot i
    ⟨{ q with head := q.head + 1, svctime := BitVec.ofNat 64 s.time, eprio := q.prio, state := .active }, 0⟩
  let s2 := s1.modDev fun d => { d with fetched := d.fetched ++ [⟨q.ctx, q.qid, b⟩] }
  match buf with
  | some a => s2.physWrite a b
  | none => s2

/-- A packet with a reserved TYPE or a nonzero reserved bit: its queue becomes ERRORED, a usable RSLT gets the word, and Equinox has a
work record of it (R227, R238). -/
def refusePacket (s : State) (i : Fin 64) (b : List Byte) : State :=
  let q := (s.slot i).q
  let f : Fetched := ⟨q.ctx, q.qid, b⟩
  let s1 := queueErrored (beginWork s f.cmd (packetCode b)) i cEqxQpacketBad
  endWork (if packetRslt b % 8 = 0 then result s1 q.ctx q.qid f.cmd.rslt cEqxQpacketBad 1 else s1) f.cmd (packetCode b)

/-- The outcome of qfetch: status, cause and the state. -/
def fetchSlot (s : State) (i : Fin 64) (buf : Option Nat) : Nat × Cause × State :=
  let q := (s.slot i).q
  if q.state = .free ∨ q.state = .errored then (3, 0, s)
  else if q.prod = q.head then (2, 0, modSlot s i fun x => { x with state := .mapped })
  else
    let va := q.ring.toNat + 64 * (q.head.toNat % 2 ^ q.log2n.toNat)
    match gRead s .none q.ctx .equinox va 64 with
    | .error e => (4, e.1, queueErrored s i e.1)
    | .ok b =>
      let s := s.chipEqx q.ctx va 64
      if packetTorn b (q.head + 1) then
        let s1 := s.setSlot i { s.slot i with retry := (s.slot i).retry + 1 }
        if (s1.slot i).retry = 1000 then (5, cEqxQpacketBad, queueErrored s1 i cEqxQpacketBad)
        else (1, 0, modSlot s1 i fun x => { x with state := .active })
      else if packetBad b then (5, cEqxQpacketBad, refusePacket s i b)
      else (0, 0, takePacket s i buf b)

/-- R345, R346. -/
def execQfetch (r : RArgs) (s : State) : Out :=
  let a := s.xreg r.rs2
  let n := (s.xreg r.rs1).toNat
  .next (if a.toNat % 64 ≠ 0 ∨ a.toNat + 64 > hbmTop then s.eqxTrap mcStoreAccess a
    else if 63 < n then s.eqxRetire r.rd 3
    else
      let (st, c, t) := fetchSlot s (Fin.ofNat 64 n) (some a.toNat)
      t.eqxRetire r.rd (BitVec.ofNat 64 (c.toNat * 2 ^ 8 + st)))

/-- A slot that has a reason to be served gets a core (R230). -/
def assignSlot (s : State) (i : Fin 64) : State :=
  let q := (s.slot i).q
  if q.state = .mapped ∧ (s.slotSum.getLsbD i.val = true ∨ q.prod ≠ q.head) then
    modSlot s i fun x => { x with state := .active }
  else s

/-- The effective priority of a queue after `t` ns without service (R231). -/
def agedPrio (q : Qcb) (t ival : Nat) : BitVec 3 :=
  BitVec.ofNat 3 (min 7 (q.prio.toNat + (t - q.svctime.toNat) / max 1 ival))

/-- A QCB with the EPRIO that it has now (R231); a FREE slot holds no queue. -/
def Qcb.now (s : State) (q : Qcb) : Qcb :=
  if q.state = .free then q else { q with eprio := agedPrio q s.time (ageNs s 0) }

/-- A queue of priority `p` last served at `t` comes before one of `p'`, `t'` (R231). -/
def servedBefore (a b : Qcb) : Bool :=
  decide (b.eprio.toNat < a.eprio.toNat) || (a.eprio = b.eprio && decide (a.svctime.toNat < b.svctime.toNat))

/-- The first slot of a list that no other comes before, with the priorities of now. -/
def firstSlot (before : Qcb → Qcb → Bool) (s : State) : List (Fin 64) → Option (Fin 64)
  | [] => none
  | i :: l =>
    match firstSlot before s l with
    | none => some i
    | some j => if before ((s.slot j).q.now s) ((s.slot i).q.now s) then some j else some i

/-! ## sigwait (R370) -/

/-- R370: with no bit of the mask set and no interrupt, the core stays at the instruction. -/
def execSigwait (r : RArgs) (s : State) : Out :=
  let sel := s.xreg r.rs2
  let msk := s.xreg r.rs1
  let hit := (if sel = 0 then s.slotSum else s.ctxSum) &&& msk
  .next (if 1 < sel.toNat ∨ msk = 0 then s.eqxRetire r.rd 0
    else if hit ≠ 0 then
      (if sel = 0 then { s with slotSum := s.slotSum &&& ~~~hit } else { s with ctxSum := s.ctxSum &&& ~~~hit } : State
        ).eqxRetire r.rd hit
    else if s.eqxMe.interrupted then s.eqxRetire r.rd 0
    else s.waits)

/-! ## qload, qsave (R347 to R349) -/

/-- The QCB is loaded into a slot (R348). -/
def loadSlot (s : State) (i : Fin 64) (q : Qcb) : State :=
  let s := restoreKicks s q.ctx q.qid
  let pend := (s.ctx q.ctx).pending.getLsbD q.qid.toNat
  let s1 := s.setSlot i ⟨{ q with state := .mapped }, 0⟩
  let s2 := s1.modCtx q.ctx fun c => c.setPending (setBitAt c.pending q.qid.toNat false)
  if pend || q.prod != q.head then { s2 with slotSum := setSum s2.slotSum i.val true } else s2

/-- R347, R348. -/
def execQload (r : RArgs) (s : State) : Out :=
  let a := s.xreg r.rs2
  let n := (s.xreg r.rs1).toNat
  .next (if a.toNat % 128 ≠ 0 ∨ a.toNat + 128 > hbmTop then s.eqxTrap mcLoadAccess a
    else if 63 < n then s.eqxRetire r.rd 3
    else
      let i : Fin 64 := Fin.ofNat 64 n
      let b := s.physRead a.toNat 128
      let q := parseQcb b
      if (s.slot i).q.state ≠ .free then s.eqxRetire r.rd 3
      else if qcbBad s b then s.eqxRetire r.rd 4
      else if q.state = .active ∨ q.state = .errored then s.eqxRetire r.rd 2
      else (loadSlot s i q).eqxRetire r.rd 0)

/-- The QCB of a slot as it is saved: its EPRIO is that of now, its QSEQ one more (R231, R239, R349). -/
def savedQcb (s : State) (i : Fin 64) : Qcb := { (s.slot i).q.now s with qseq := (s.slot i).q.qseq + 1 }

/-- The slot's queue goes back to the queue tables (R239) and the slot falls FREE (R349). -/
def freeSlot (s : State) (i : Fin 64) : State :=
  let q := savedQcb s i
  let s1 := putQcb s q
  { s1.setSlot i ⟨Qcb.init, 0⟩ with slotSum := setSum s1.slotSum i.val false }

/-- The slot's QCB is written with QSEQ + 1, and the slot falls FREE (R349). -/
def saveSlot (s : State) (i : Fin 64) (a : Nat) : State :=
  freeSlot (s.physWrite a (savedQcb s i).bytes) i

/-- R347, R349. -/
def execQsave (r : RArgs) (s : State) : Out :=
  let a := s.xreg r.rs2
  let n := (s.xreg r.rs1).toNat
  .next (if a.toNat % 128 ≠ 0 ∨ a.toNat + 128 > hbmTop then s.eqxTrap mcStoreAccess a
    else if 63 < n then s.eqxRetire r.rd 3
    else
      let i : Fin 64 := Fin.ofNat 64 n
      match (s.slot i).q.state with
      | .free => s.eqxRetire r.rd 3
      | .active => s.eqxRetire r.rd 1
      | _ => (saveSlot s i a.toNat).eqxRetire r.rd 0)

/-! ## Queues in and out of slots (R231) -/

/-- A queue whose slot is freed before another's: the lowest EPRIO, the oldest service on ties. -/
def evictedBefore (a b : Qcb) : Bool :=
  decide (a.eprio.toNat < b.eprio.toNat) || (a.eprio = b.eprio && decide (a.svctime.toNat < b.svctime.toNat))

/-- The MAPPED slot that makes room for the queue of `q`. -/
def evictedSlot (s : State) (q : Qcb) : Option (Fin 64) :=
  let l := (List.finRange 64).filter fun i => (s.slot i).q.state = .mapped
  let idle := l.filter fun i => (s.slot i).q.prod = (s.slot i).q.head
  if idle.isEmpty then
    (firstSlot evictedBefore s l).filter fun i => decide (((s.slot i).q.now s).eprio.toNat < q.eprio.toNat)
  else firstSlot evictedBefore s idle

/-- The FREE slot of the lowest number. -/
def emptySlot (s : State) : Option (Fin 64) := (List.finRange 64).find? fun i => (s.slot i).q.state = .free

/-- Equinox gives a queue with a pending bit a slot, evicting another when none is FREE (R231); it reads the queue tables
(R239). -/
def fwMap (s : State) (ctx : CtxId) (qid : BitVec 12) : State :=
  let s := restoreQcb (restoreKicks s ctx qid) ctx qid
  match tableQcb s ctx qid with
  | none => s
  | some q0 =>
    let q := q0.now s
    if slotOf s ctx qid != none || !(s.ctx ctx).pending.getLsbD qid.toNat || q.state = .errored then s
    else
      match emptySlot s with
      | some i => loadSlot s i q
      | none =>
        match evictedSlot s q with
        | some i => loadSlot (freeSlot s i) i q
        | none => s

/-! ## dispatch (R298, R299) -/

/-- The launch waits for walkers: the slot of its queue goes back to MAPPED and keeps HELD (R230, R231). -/
def heldWaits (s : State) (li : Nat) : State :=
  match (launchQueue s li).bind fun x => slotOf s x.1 x.2 with
  | some i => modSlot s i fun q => if q.state = .active then { q with state := .mapped } else q
  | none => s

/-- x[rd] of dispatch. -/
def dispatchWord (st : Nat) (c : Cause) (idx : Nat) : W64 := BitVec.ofNat 64 (idx % 2 ^ 32 * 2 ^ 32 + c.toNat * 2 ^ 8 + st)

/-- The accepted launch that a record names, which is dispatched as the record now reads; a record not yet accepted is accepted
now (R41, R42, R298). -/
def recordLaunch (s : State) (ctx : CtxId) (r : LRec) : Except Cause (Nat × State) :=
  if lrecBad s ctx r then .error cLaunchRecordBad
  else if kimBad s ctx r then .error cLaunchKimBad
  else
    match liveLaunch s ctx r.launchId with
    | none => .ok (s.launches.length, acceptLaunch s ctx r 1 (.queue none) none none)
    | some li =>
      match s.launch? li with
      | some l => if l.phase = .accepted ∧ (l.src matches .queue _) then
          .ok (li, s.modLaunch li fun x => { x with r := r }) else .error cLaunchIdBusy
      | none => .error cLaunchIdBusy

/-- The launch whose dispatch the core has begun, if it is that of this record (R299). -/
def pausedLaunch (s : State) (ctx : CtxId) (r : LRec) : Option (Nat × Launch) :=
  s.eqxMe.disp.bind fun li => (s.launch? li).bind fun l => if l.ctx = ctx ∧ l.r = r then some (li, l) else none

/-- The core's dispatch has begun (`some`) or is over. -/
def setDisp (s : State) (d : Option Nat) : State := s.modEqx s.core fun k => { k with disp := d }

/-- dispatch of an accepted launch (R298 from its second line on); `old` is the state before, which statuses 1 and 2 leave. -/
def dispatchOne (rd : BitVec 5) (li : Nat) (old s : State) : State :=
  let done (t : State) (v : W64) : State := (setDisp t none).eqxRetire rd v
  match dispatchLaunch s li with
  | .ok u => done (heldOver u li) (dispatchWord 0 0 0)
  | .noWalker => done (heldWaits old li) (dispatchWord 1 0 0)
  | .predWait => done old (dispatchWord 2 0 0)
  | .predFailed u => done (heldOver u li) (dispatchWord 3 0 0)
  | .rejected c i u => done (heldOver u li) (dispatchWord 4 c i)
  | .pause _ u => setDisp u (some li)

/-- dispatch of the record `r` of a context. One that paused goes on with its launch, and ends with status 4 when the page
could not be brought (R299). -/
def dispatchRec (rd : BitVec 5) (ctx : CtxId) (r : LRec) (s : State) : State :=
  match pausedLaunch s ctx r with
  | some (li, l) =>
    if l.phase = .failed then (setDisp s none).eqxRetire rd (dispatchWord 4 l.cause 0) else dispatchOne rd li s s
  | none =>
    match recordLaunch s ctx r with
    | .error c => s.eqxRetire rd (dispatchWord 4 c 0)
    | .ok (li, t) => dispatchOne rd li s t

/-- R298, R299. -/
def execDispatch (rd rs1 : BitVec 5) (s : State) : Out :=
  let x := s.xreg rs1
  let a := bits x.toNat 7 39 * 128
  .next (if bits x.toNat 46 18 ≠ 0 ∨ bit x.toNat 6 ∨ a + 128 > hbmTop then s.eqxTrap mcLoadAccess x
    else dispatchRec rd (Fin.ofNat 64 x.toNat) (parseLRec (s.physRead a 128)) s)

end Sys2Proof.Machine
end

