-- ==== Sys2Proof/Machine/Pages.lean ====
section
/-! DEFINITION. Mapping and unmapping ranges (R202, R205, R235), the Remote Mapping Table (R174, R430), and HOST pages
(R203). -/

namespace Sys2Proof.Machine

open Sys2Proof

/-- Whether an SP has stopped at a fault. -/
def RunState.isFault : RunState → Bool
  | .stopped (.fault _) => true
  | _ => false

/-! ## Pages of a range -/

/-- Level and RUN code of a page size (R202). -/
def levelRun (p : Nat) : Nat × Nat :=
  if p = 0x1000 then (3, 0) else if p = 0x1_0000 then (3, 1) else if p = 0x10_0000 then (3, 2)
  else if p = 0x80_0000 then (2, 0) else if p = 0x800_0000 then (2, 1) else if p = 0x4_0000_0000 then (1, 0) else (1, 1)

/-- Writes the entries of the page at `va`. -/
def putPage (s : State) (ctx : CtxId) (va p e : Nat) : Option State :=
  let (lvl, run) := levelRun p
  setRun s (rootTable (s.ctx ctx)) va lvl e (runLength run)

/-- The page that maps `va`, present or kept for HOST: base, size and entry. -/
def pageAt (s : State) (ctx : CtxId) (va : Nat) : Option (Nat × Nat × Nat) :=
  match walk s ctx va with
  | .ok l => some (l.base, l.psize, l.pte)
  | .error _ => (hostEntry s ctx va).map fun x => (va / x.2.2 * x.2.2, x.2.2, x.2.1)

/-- The frame that a page holds. -/
def frameOf (e : Nat) : List Nat := if bit e 0 && (pteKind e == 0 || pteKind e == 3) then [pteFrame e] else []

/-- Clears every page of [lo, hi) from `va` on, with the frames they held; `none` when a page lies across an end. -/
def unmapFrom (ctx : CtxId) (lo hi : Nat) : Nat → Nat → State → List Nat → Option (State × List Nat)
  | 0, _, s, fs => some (s, fs)
  | n + 1, va, s, fs =>
    if va ≥ hi then some (s, fs)
    else
      match pageAt s ctx va with
      | none => unmapFrom ctx lo hi n (va + 0x1000) s fs
      | some (b, p, e) =>
        if b < lo ∨ hi < b + p then none
        else
          match putPage s ctx b p 0 with
          | none => none
          | some t => unmapFrom ctx lo hi n (b + p) t (fs ++ frameOf e)

def unmapRange (s : State) (ctx : CtxId) (va n : Nat) : Option (State × List Nat) :=
  unmapFrom ctx va (va + n) (n / 0x1000 + 1) va s []

/-- Some page of the range is mapped. -/
def anyMapped (s : State) (ctx : CtxId) (va : Nat) : Nat → Bool
  | 0 => false
  | n + 1 => mapped s ctx va || anyMapped s ctx (va + 0x1000) n

/-- A range touches the device area (R428). -/
def inDevArea (va n : Nat) : Bool := decide (devAreaBase < va + n)

/-! ## MEM_MAP (R235) -/

/-- Maps pages one after the other; `mk` gives the state after any frame is taken and the entry of page `i`. -/
def mapPages (ctx : CtxId) (va p : Nat) (mk : State → Nat → Option (State × Nat)) : Nat → State → Option State
  | 0, s => some s
  | n + 1, s =>
    match mapPages ctx va p mk n s with
    | none => none
    | some t =>
      match mk t n with
      | none => none
      | some (u, e) => putPage u ctx (va + n * p) p e

/-- The entry bits that every kind takes from ARG2, with LEAF and RUN. -/
def entryBits (a2 run : Nat) : Nat := 2 + a2 % 512 / 4 * 4 + run * 2 ^ 9

/-- A frame for a page in the region that LOC and the die name. -/
def frameFor (s : State) (loc : Bool) (die p : Nat) : Option (State × Nat) :=
  (findFrame s (if loc then some (Fin.ofNat 4 die) else none) p).map fun f => (takeFrame s f p, f)

/-- The entry of page `i` (R202, R235; log 9). -/
def pageEntry (a2 a3 p : Nat) (s : State) (i : Nat) : Option (State × Nat) :=
  let run := (levelRun p).2
  let b := entryBits a2 run
  match bits a2 2 2 with
  | 0 => (frameFor s (bit a2 6) (bits a3 0 2) p).map fun x => (x.1, 1 + b + x.2)
  | 1 => some (s, 1 + b + bits a3 0 12 * 2 ^ 12 + (bits a3 12 32 + i) * 2 ^ 24)
  | 2 => some (s, 1 + b)
  | _ => some (s, b + bits a3 0 2 * 2 ^ 46)

/-- ARG3 holds nothing that the kind does not use, and the last ROFF fits (R235). -/
def arg3Ok (a2 a3 pages : Nat) : Bool :=
  match bits a2 2 2 with
  | 1 => a3 / 2 ^ 44 == 0 && decide (bits a3 12 32 + (pages - 1) < 2 ^ 32)
  | 2 => a3 == 0
  | _ => if bit a2 6 then a3 / 4 == 0 else a3 == 0

/-- A command that changes entries ends after the shootdown of their range (R205). -/
def CmdEnd.shot (v : Nat) (s : State) (ctx : CtxId) (lo hi : Nat) (frees : List Nat) : CmdEnd :=
  .later (.shootdown (s.dev.shootNum + 1)) v (startShootdown s ctx lo hi frees)

/-- R235; the entries are changed as R205 says. A range of no page, or beyond 2^56, is malformed (log 124). -/
def memMap (s : State) (c : Cmd) : CmdEnd :=
  let va := c.a0.toNat
  let n := c.a1.toNat
  let a2 := c.a2.toNat
  match sizeCode (bits a2 12 3) with
  | none => .bad 1
  | some (_, _, p) =>
    if a2 / 2 ^ 15 ≠ 0 ∨ bits a2 9 3 ≠ 0 ∨ bits a2 0 2 ≠ 0 ∨ bits a2 4 2 = 3 ∨ n = 0 ∨ va % p ≠ 0 ∨ n % p ≠ 0
      ∨ va + n > 2 ^ 56 ∨ (bits a2 2 2 = 2 ∧ bits a2 12 3 ≠ 1) ∨ arg3Ok a2 c.a3.toNat (n / p) = false then .bad 1
    else if inDevArea va n then .bad 2
    else
      match unmapRange s c.ctx va n with
      | none => .bad 1
      | some (t, fs) =>
        match mapPages c.ctx va p (pageEntry a2 c.a3.toNat p) (n / p) t with
        | none => .bad 3
        | some u =>
          .shot 0 u c.ctx va (va + n) fs

/-- R233: MEM_UNMAP ends after the shootdown. A range of no page, or beyond 2^56, is malformed (log 124). -/
def memUnmap (s : State) (c : Cmd) : CmdEnd :=
  let va := c.a0.toNat
  let n := c.a1.toNat
  if n = 0 ∨ va % 0x1000 ≠ 0 ∨ n % 0x1000 ≠ 0 ∨ va + n > 2 ^ 56 then .bad 1
  else if inDevArea va n then .bad 2
  else
    match unmapRange s c.ctx va n with
    | none => .bad 1
    | some (t, fs) => .shot 0 t c.ctx va (va + n) fs

/-! ## RMT_SET (R174, R430) -/

/-- R430: the entry is written, then every range that maps through it is shot down. -/
def rmtSet (s : State) (c : Cmd) : CmdEnd :=
  if c.a0.toNat > 4095 ∨ bits c.a1.toNat 12 20 ≠ 0 ∨ bits c.a2.toNat 56 8 ≠ 0 then .bad 1
  else
    let a := bits (s.ctx c.ctx).rmtbase.toNat 16 40 * 2 ^ 16 + 16 * c.a0.toNat
    let t := s.physWrite a (leBytes 8 c.a1.toNat ++ leBytes 8 c.a2.toNat)
    .shot 0 t c.ctx 0 (2 ^ 56) []

/-! ## HOST pages (R203) -/

/-- The page requests that the device has outstanding as requester; there are at most 16 (R237). -/
def asksOut (s : State) : Nat := (s.dev.pageAsks.filter fun x => x.sent.isSome).length

/-- Equinox acts on the fault of a HOST page: it writes a work record and asks the host (R203, R237, R238). -/
def fwFault (s : State) (k : Nat) : State :=
  match s.dev.pageAsks[k]? with
  | none => s
  | some a =>
    if a.sent.isSome then s
    else if (hostEntry s a.ctx a.va.toNat).isNone then s.modDev fun d => { d with pageAsks := d.pageAsks.eraseIdx k }
    else if 16 ≤ asksOut s then s
    else
      let s1 := (beginWork s (pageCmd a.ctx a.va) pageCode).ethSend (.pageRequest a.ctx a.va)
      s1.modDev fun d =>
        { d with pageAsks := modList (fun (x : PageAsk) => { x with sent := some (s.time, fabLimit s) }) d.pageAsks k }

/-- The request for the page is answered, or given up. -/
def askOver (s : State) (ctx : CtxId) (base p : Nat) : State :=
  let is (a : PageAsk) : Bool := a.ctx = ctx && !a.gone && onPage base p a.va.toNat
  (s.dev.pageAsks.filter is).foldl (fun t a => endWork t (pageCmd a.ctx a.va) pageCode)
    (s.modDev fun d => { d with pageAsks := d.pageAsks.filter fun a => !is a })

/-- The host's data fill a free frame of the region that the entry names, and the entry becomes valid, as R205 says. -/
def pageIn (s : State) (e p : Nat) (ctx : CtxId) (base : Nat) (d : List Byte) : Option State :=
  (frameFor s (bit e 6) (bits e 46 2) p).bind fun x =>
    (putPage (x.1.physWrite x.2 d) ctx base p (e % 2 ^ 12 + 1 + x.2)).map fun t =>
      startShootdown t ctx base (base + p) []

/-- The launches that waited for the page go on. -/
def launchesGoOn (s : State) (ctx : CtxId) (base p : Nat) : State :=
  { s with launches := s.launches.map fun l =>
      if l.ctx = ctx ∧ ((l.wait.map fun v => onPage base p v.toNat).getD false) = true then { l with wait := none } else l }

/-- Result words that waited for the page are tried again. -/
def resultsAgain (s : State) (ctx : CtxId) (base p : Nat) : State :=
  let mine := s.dev.results.filter fun r => r.ctx = ctx && onPage base p r.addr.toNat
  mine.foldl putResult (s.modDev fun d =>
    { d with results := d.results.filter fun r => !(r.ctx = ctx && onPage base p r.addr.toNat) })

/-! ### HOST_PAGE_ERROR -/

/-- What a strand waits for lies on the page. -/
def pendOn (base p : Nat) (q : Pend) : Bool :=
  match q with
  | .repair _ va => onPage base p va.toNat
  | _ => false

def recsOn (base p : Nat) (l : List SfRecord) : Bool := l.any fun r => onPage base p r.va.toNat

/-- The strand of an SP, its copies and its load. -/
def spPageError (ctx : CtxId) (base p : Nat) (s : State) (sp : SpId) : State :=
  let q := s.sp sp
  if q.id.ctx ≠ ctx ∨ (q.run = .idle) then s
  else
    let s1 := s.modSp sp fun x => x.modStr fun y => { y with chans := y.chans.map fun c =>
      { c with run := c.run.map fun r =>
          if pendOn base p r.pend ∧ r.stop = none then { r with stop := some cHostPageError, pend := .none } else r } }
    let s2 := if pendOn base p q.str.kpend then
        match q.str.kload with
        | some (o, _) =>
          (match o.body with
            | .kload kb _ n => kloadFail s1 sp kb n.toNat cHostPageError
            | _ => s1)
        | none => s1
      else s1
    let t := s2.sp sp
    if pendOn base p t.pend && t.run = .running then
      -- a svc whose destination page cannot be brought (R381)
      { (noteFault { s2 with cur := sp } ctx t.r.pc cSvcCall).retireTo 8 (resultVal cHostPageError 0) with cur := s2.cur }
    else if (pendOn base p t.pend && t.run.isFault)
        || (t.sto.delivered && recsOn base p t.sto.records) then failStrand s2 sp cHostPageError
    else s2

/-- A gang written back FAULTED for the page. -/
def gangPageError (ctx : CtxId) (base p : Nat) (s : State) (gi : Nat) : State :=
  match s.gang? gi with
  | none => s
  | some g =>
    if !g.live || g.ctx != ctx then s
    else
      match g.seats.zipIdx.find? fun x => x.1.status = .faulted && x.1.sp.isNone
          && (onPage base p x.1.fva.toNat || recsOn base p ((x.1.area.map SaveArea.recs).getD [])) with
      | some x => failGang s gi x.2 cHostPageError
      | none => s

/-- A launch that waited for the page: its dispatch fails (R299), or its completion value is not written (R58). -/
def launchPageError (ctx : CtxId) (base p : Nat) (s : State) (li : Nat) : State :=
  match s.launch? li with
  | none => s
  | some l =>
    if l.ctx ≠ ctx ∨ ((l.wait.map fun v => onPage base p v.toNat).getD false) = false then s
    else
      let s1 := s.modLaunch li fun x => { x with wait := none }
      if l.phase = .accepted then
        (match l.src with
          | .pool _ => unqueue (endFailed s1 li cHostPageError) li
          | .queue _ => heldOver (endFailed s1 li cHostPageError) li)
      else emitLaunch s1 li ctx cHostPageError l.r.seq

/-- The Dealers' accesses to the page fail. -/
def dealerPageError (ctx : CtxId) (base p : Nat) (s : State) (die : DieId) : State :=
  match (s.die die).dealer.run with
  | some r =>
    if r.op.ctx = ctx then
      let f := fun (u : DealAsk) =>
        if u.typ = 0 ∧ onPage base p u.addr ∧ u.ans.isNone then { u with ans := some (.err cHostPageError) } else u
      modDealer s die fun x => { x with memo := x.memo.map f }
    else s
  | none => s

/-- A command that waits for the page of its operand (R203). -/
def cmdOnPage (ctx : CtxId) (base p : Nat) (x : PendingCmd) : Bool :=
  match x.wait with
  | .page c va => c = ctx && onPage base p va.toNat
  | _ => false

/-- The page cannot be brought: every access that waits for it ends with HOST_PAGE_ERROR (R203). -/
def pageError (s : State) (ctx : CtxId) (base p : Nat) : State :=
  let s1 := (List.finRange 68).foldl (spPageError ctx base p) s
  let s2 := (List.range s1.gangs.length).foldl (gangPageError ctx base p) s1
  let s3 := (List.range s2.launches.length).foldl (launchPageError ctx base p) s2
  let s4 := (List.finRange 4).foldl (dealerPageError ctx base p) s3
  let mine := s4.dev.results.filter fun r => r.ctx = ctx && onPage base p r.addr.toNat
  let s5 := mine.foldl (fun t r => emitQueue t r.ctx cHostPageError r.qid) (s4.modDev fun d =>
    { d with results := d.results.filter fun r => !(r.ctx = ctx && onPage base p r.addr.toNat) })
  let stuck := s5.dev.cmds.filter (cmdOnPage ctx base p)
  let s6 := stuck.foldl (fun t x => endCmd t x.cmd x.code cHostPageError 0) (s5.modDev fun d =>
    { d with cmds := d.cmds.filter fun x => !cmdOnPage ctx base p x })
  let ring := s.dev.ev.ring.toNat
  if ctx = 0 ∧ base < ring + 0x2_0010 ∧ ring < base + p then eventsAgain s6 true else s6

/-- What waited for a page goes on. -/
def pageCame (s : State) (ctx : CtxId) (base p : Nat) : State :=
  let t := resultsAgain (launchesGoOn s ctx base p) ctx base p
  if ctx = 0 then eventsAgain t false else t

/-- When Equinox asked the host for the page, and the time limit. -/
def askSent (s : State) (ctx : CtxId) (base p : Nat) : Option (Nat × Nat) :=
  s.dev.pageAsks.findSome? fun a => if a.ctx = ctx ∧ a.gone = false ∧ onPage base p a.va.toNat = true then a.sent else none

/-- The host answers for a page that has been unmapped since, or whose context is gone: the data are dropped, and the request is no
longer outstanding (R237, R238). -/
def strayAnswer (s : State) (ctx : CtxId) (va : W64) : Out :=
  match s.dev.pageAsks.find? fun a => a.ctx = ctx && a.va = va && a.sent.isSome with
  | none => .refused (.notEnabled "HOST_PAGE_IN")
  | some a =>
    let t := s.modDev fun d => { d with pageAsks := d.pageAsks.erase a }
    .next (if a.gone then t else endWork t (pageCmd ctx va) pageCode)

/-- R203: the host answers a page request, or refuses it (`none`). An answer that comes after FABTIME.LIMIT is none. -/
def execHostPageIn (ctx : CtxId) (va : W64) (data : Option (List Byte)) (s : State) : Out :=
  match hostEntry s ctx va.toNat with
  | none => strayAnswer s ctx va
  | some (_, e, p) =>
    let base := va.toNat / p * p
    match askSent s ctx base p with
    | none => strayAnswer s ctx va
    | some (since, limit) =>
      let s1 := askOver s ctx base p
      .next (match data with
        | none => pageError s1 ctx base p
        | some d =>
          if since + limit < s.time then pageError s1 ctx base p
          else
            match pageIn s1 e p ctx base (d.take p) with
            | some t => pageCame t ctx base p
            | none => pageError s1 ctx base p)

end Sys2Proof.Machine
end

