-- ==== Sys2Proof/Machine/Zco.lean ====
section
/-! DEFINITION. Code objects (R240 to R243, R274, R429): the container, its checks, relocation, and the mappings that
ZCO_LOAD makes and ZCO_UNLOAD removes. The ELF64 layout itself is outside the manual (log 20). -/

namespace Sys2Proof.Machine

open Sys2Proof

/-! ## The ELF64 file (log 20) -/

def asciiBytes (s : String) : List Byte := s.toList.map fun c => BitVec.ofNat 8 c.toNat

/-- The string that begins at an offset of a string table. -/
def cstr (b : List Byte) (off : Nat) : List Byte := (b.drop off).takeWhile fun x => x != 0

def subBytes (b : List Byte) (off n : Nat) : List Byte := (b.drop off).take n

/-- A section header: name, type, SHF_ALLOC, address, file offset, size. -/
structure Shdr where
  name  : List Byte
  typ   : Nat
  alloc : Bool
  addr  : Nat
  off   : Nat
  size  : Nat
  deriving DecidableEq, Repr

/-- The file header: magic, 64-bit, little-endian, version 1, EI_OSABI 0, e_machine 0xC7E2, 64-byte section headers that
lie in the file. -/
def elfOk (b : List Byte) : Bool :=
  decide (64 ≤ b.length) && field b 0 4 = 0x464C_457F && field b 4 3 = 0x1_0102 && field b 7 1 = 0
    && field b 18 2 = 0xC7E2 && field b 58 2 = 64 && decide (field b 40 8 + 64 * field b 60 2 ≤ b.length)
    && decide (field b 62 2 < field b 60 2)

def parseShdr (b names : List Byte) (o : Nat) : Shdr :=
  ⟨cstr names (field b o 4), field b (o + 4) 4, bit (field b (o + 8) 8) 1, field b (o + 16) 8, field b (o + 24) 8,
    field b (o + 32) 8⟩

/-- The sections after the null section. -/
def parseShdrs (b : List Byte) : List Shdr :=
  let sh := field b 40 8
  let o := sh + 64 * field b 62 2
  let names := subBytes b (field b (o + 24) 8) (field b (o + 32) 8)
  (List.range (field b 60 2 - 1)).map fun i => parseShdr b names (sh + 64 * (i + 1))

/-- The allocated sections of R240 by name. -/
def allocKind (name : List Byte) : Option SecKind :=
  if name = asciiBytes ".text" then some .text
  else if name = asciiBytes ".zkim" then some .zkim
  else if name = asciiBytes ".zlive" then some .zlive
  else if name = asciiBytes ".ztmpl" then some .ztmpl
  else if name = asciiBytes ".zlaunch" then some .zlaunch
  else if name = asciiBytes ".data" then some .data
  else if name = asciiBytes ".bss" then some .bss
  else none

/-- The other sections of R240. -/
def fileSection (name : List Byte) : Bool :=
  name = asciiBytes ".symtab" || name = asciiBytes ".strtab" || name = asciiBytes ".rela" || name = asciiBytes ".zmmr"
    || name = asciiBytes ".zerrata" || name = asciiBytes ".zisa"

def Shdr.known (h : Shdr) : Bool := (allocKind h.name).isSome || fileSection h.name

/-- The bytes of a section in the file; SHT_NOBITS sections have none. -/
def Shdr.bytes (h : Shdr) (b : List Byte) : List Byte := if h.typ = 8 then [] else subBytes b h.off h.size

def named (l : List Shdr) (s : String) : Option Shdr := l.find? fun h => h.name = asciiBytes s

def distinctNames (l : List Shdr) : Bool :=
  (l.zipIdx.all fun x => (l.drop (x.2 + 1)).all fun y => !x.1.known || x.1.name != y.name)

/-! ## Sections as they are loaded -/

/-- An allocated section with its bytes; `.bss` has none in the file. -/
structure LoadSec where
  sec  : Section
  data : List Byte
  deriving DecidableEq, Repr

def SecKind.align : SecKind → Nat
  | .data => 0x1000
  | .bss => 0x1000
  | _ => 0x1_0000

/-- The PTE bits below the frame: V, LEAF, RC, with W and X of the section (R429). -/
def SecKind.pteBits : SecKind → Nat
  | .text => 0x113
  | .data => 0x93
  | .bss => 0x93
  | _ => 0x13

def loadSecs (b : List Byte) (l : List Shdr) : List LoadSec :=
  l.filterMap fun h => (allocKind h.name).map fun k =>
    ⟨⟨k, BitVec.ofNat 64 h.addr, h.size⟩, if k = .bss then [] else h.bytes b⟩

/-- R429: placed, aligned, clear of every mapping and of the device area. -/
def secPlaced (s : State) (ctx : CtxId) (x : Section) : Bool :=
  let a := x.addr.toNat
  a != 0 && a % x.kind.align = 0 && decide (a + x.size ≤ devAreaBase)
    && !anyMapped s ctx a (alignUp x.size 0x1000 / 0x1000)

/-- The form of the file (R240, R429); one without .zisa is of revision 1 (log 125). -/
def fileOk (s : State) (ctx : CtxId) (b : List Byte) : Bool :=
  elfOk b
    && (let l := parseShdrs b
        let secs := (loadSecs b l).map LoadSec.sec
        distinctNames l
          && l.all (fun h => (h.typ = 8 || !h.known || decide (h.off + h.size ≤ b.length)) && (h.known || !h.alloc))
          && secs.all (secPlaced s ctx)
          && !overlapAny (secs.map fun x => (x.addr.toNat, x.size))
          && ((named l ".zisa").map fun h => h.size = 4 && leNat (h.bytes b) = 1).getD true
          && ((named l ".zmmr").map fun h => decide (h.size = 4)).getD true
          && ((named l ".zerrata").map fun h => decide (h.size % 4 = 0)).getD true)

def mmrOk (b : List Byte) : Bool := ((named (parseShdrs b) ".zmmr").map fun h => decide (leNat (h.bytes b) = 1)).getD true

/-- R243: the erratum table is empty, so an entry with bit 16 set fails the load. -/
def errataOk (b : List Byte) : Bool :=
  match named (parseShdrs b) ".zerrata" with
  | none => true
  | some h => (List.range (h.size / 4)).all fun i => !bit (field (h.bytes b) (4 * i) 4) 16

/-! ## The image table (R240; log 20) -/

/-- Entries from number `i` on; the table ends at an entry of zeros or where the first image begins (`lim`). -/
def zkimEntries (d : List Byte) : Nat → Nat → Nat → Option (List (Nat × Nat))
  | 0, _, _ => some []
  | n + 1, i, lim =>
    if 16 * i + 16 > lim ∨ (field d (16 * i) 8 = 0 ∧ field d (16 * i + 8) 8 = 0) then some []
    else
      let off := field d (16 * i) 4
      let cnt := field d (16 * i + 4) 2
      if off % 64 ≠ 0 ∨ cnt = 0 ∨ cnt > 4096 ∨ field d (16 * i + 6) 2 ≠ 0 ∨ field d (16 * i + 8) 8 ≠ 0
          ∨ off + 64 * cnt > d.length ∨ off < 16 * i + 16 then none
      else (zkimEntries d n (i + 1) (min lim off)).map fun l => (off, cnt) :: l

def secData (l : List LoadSec) (k : SecKind) : List Byte := ((l.find? fun x => x.sec.kind = k).map LoadSec.data).getD []
def secAddr (l : List LoadSec) (k : SecKind) : Nat :=
  ((l.find? fun x => x.sec.kind = k).map fun x => x.sec.addr.toNat).getD 0

def imageTable (l : List LoadSec) : Option (List (Nat × Nat)) :=
  let d := secData l .zkim
  zkimEntries d (d.length / 16) 0 d.length

/-- The bundles of an image, relative as R269 says. -/
def imageBundles (d : List Byte) (x : Nat × Nat) : List BundleWord :=
  (List.range x.2).map fun i => BitVec.ofNat 512 (field d (x.1 + 64 * i) 64)

def imagesOk (l : List LoadSec) (t : List (Nat × Nat)) : Bool :=
  t.all fun x => (imageBundles (secData l .zkim) x).all fun w => kloadOk x.2 w

/-- Templates are whole, and their count fits NENT (R80, R429). -/
def tmplOk (l : List LoadSec) : Bool :=
  let n := (secData l .ztmpl).length
  n % 64 = 0 && decide (n ≤ 64 * 0x1_0000)

/-! ## Symbols (R242) -/

/-- A symbol-table entry: name, binding (0 local, 1 global, 2 weak), section number, value. -/
structure SymEnt where
  name : List Byte
  bind : Nat
  shn  : Nat
  val  : Nat
  deriving DecidableEq, Repr

def parseSyms (b : List Byte) : List SymEnt :=
  let l := parseShdrs b
  match named l ".symtab" with
  | none => []
  | some h =>
    let d := h.bytes b
    let names := ((named l ".strtab").map fun x => x.bytes b).getD []
    (List.range (h.size / 24)).map fun i =>
      ⟨cstr names (field d (24 * i) 4), field d (24 * i + 4) 1 / 16, field d (24 * i + 6) 2, field d (24 * i + 8) 8⟩

def SymEnt.isDef (e : SymEnt) : Bool := e.shn != 0 && (e.bind == 1 || e.bind == 2)

/-- The global definitions of a file in symbol-table order. -/
def newSymbols (l : List SymEnt) : List Symbol :=
  (l.filter SymEnt.isDef).map fun e => ⟨e.name, e.bind == 2, BitVec.ofNat 64 e.val⟩

/-- The global symbols of a context in load order. -/
def ctxSymbols (s : State) (ctx : CtxId) : List Symbol := (s.ctx ctx).codes.flatMap CodeObj.syms

/-- The definition that a name resolves to: a strong one, else the weak one loaded first. -/
def winner (l : List Symbol) (name : List Byte) : Option Symbol :=
  match l.find? fun x => x.name = name ∧ x.weak = false with
  | some x => some x
  | none => l.find? fun x => x.name = name

def strongTwice (l : List Symbol) : Bool :=
  l.zipIdx.any fun x => !x.1.weak && (l.drop (x.2 + 1)).any fun y => !y.weak && x.1.name = y.name

/-- R242: a weak definition lost, of this object or of an earlier one. -/
def weakLost (old new : List Symbol) : Bool :=
  new.zipIdx.any fun x =>
    (x.1.weak && ((old ++ new.take x.2).any (fun y => y.name = x.1.name)
        || new.any fun y => !y.weak && y.name = x.1.name))
      || (!x.1.weak && old.any fun y => y.weak && y.name = x.1.name)

/-- The value of a symbol for a relocation; a weak reference without a definition is 0, a strong one has none. -/
def symValue (all : List Symbol) (e : SymEnt) : Option Nat :=
  if e.bind = 0 then some e.val
  else
    match winner all e.name with
    | some w => some w.value.toNat
    | none => if e.bind = 2 then some 0 else none

/-! ## Relocation (R274) -/

structure Reloc where
  off  : Nat
  typ  : Nat
  sym  : Nat
  addn : Int
  deriving DecidableEq, Repr

def parseRelas (b : List Byte) : List Reloc :=
  match named (parseShdrs b) ".rela" with
  | none => []
  | some h =>
    let d := h.bytes b
    (List.range (h.size / 24)).map fun i =>
      ⟨field d (24 * i) 8, field d (24 * i + 8) 4, field d (24 * i + 12) 4, (BitVec.ofNat 64 (field d (24 * i + 16) 8)).toInt⟩

/-- Replaces `w` bits from bit 0 of the `n` bytes at an offset of a section. -/
def patchBytes (d : List Byte) (off n w v : Nat) : List Byte :=
  let old := field d off n
  d.take off ++ leBytes n (old / 2 ^ w * 2 ^ w + v % 2 ^ w) ++ d.drop (off + n)

def fitsS (v : Int) (w : Nat) : Bool := decide (-(2 ^ (w - 1) : Int) ≤ v) && decide (v < 2 ^ (w - 1))

/-- The field of a relocation: bytes, bits and value; `none` when the value does not fit or the type is unknown. The symbol
of types 5 and 6 is an index (R273); one that is an address (R429) stands for the index of what lies there (log 20). -/
def relocField (l : List LoadSec) (t : List (Nat × Nat)) (r : Reloc) (s : Nat) : Option (Nat × Nat × Nat) :=
  let v : Int := s + r.addn
  let d : Int := v - r.off
  match r.typ with
  | 1 => some (8, 64, (v % 2 ^ 64).toNat)
  | 2 => if fitsS v 50 then some (8, 50, (v % 2 ^ 50).toNat) else none
  | 3 => if d % 8 = 0 ∧ fitsS (d / 8) 20 = true then some (8, 20, (d / 8 % 2 ^ 20).toNat) else none
  | 4 => if 0 ≤ v ∧ v < 2 ^ 20 then some (8, 20, v.toNat) else none
  | 5 =>
    if 0 ≤ v ∧ v < 2 ^ 16 then some (2, 16, v.toNat)
    else
      (t.findIdx? fun x => (secAddr l .zkim + x.1 : Int) = v).bind fun i => if i < 2 ^ 16 then some (2, 16, i) else none
  | 6 =>
    let z : Int := v - secAddr l .ztmpl
    if 0 ≤ v ∧ v < 2 ^ 16 then some (2, 16, v.toNat)
    else if 0 ≤ z ∧ z % 64 = 0 ∧ z < (secData l .ztmpl).length then some (2, 16, (z / 64).toNat) else none
  | _ => none

/-- Writes the value of a relocation into the section that holds its place. -/
def relocPut (l : List LoadSec) (r : Reloc) (n w v : Nat) : Option (List LoadSec) :=
  let inSec (x : LoadSec) : Bool :=
    decide (x.sec.addr.toNat ≤ r.off) && decide (r.off + n ≤ x.sec.addr.toNat + x.data.length)
  if l.any inSec then
    some (l.map fun x => if inSec x then { x with data := patchBytes x.data (r.off - x.sec.addr.toNat) n w v } else x)
  else none

def relocOne (all : List Symbol) (syms : List SymEnt) (t : List (Nat × Nat)) (l : List LoadSec) (r : Reloc) :
    Option (List LoadSec) :=
  let sv := if r.sym = 0 then some 0 else syms[r.sym]?.bind (symValue all)
  match sv with
  | none => none
  | some v =>
    match relocField l t r v with
    | none => none
    | some (n, w, x) => relocPut l r n w x

def relocAll (all : List Symbol) (syms : List SymEnt) (t : List (Nat × Nat)) : List LoadSec → List Reloc →
    Option (List LoadSec)
  | l, [] => some l
  | l, r :: rs =>
    match relocOne all syms t l r with
    | none => none
    | some l1 => relocAll all syms t l1 rs

/-! ## Live-range tables (R206, R216) -/

/-- R206: the table at byte offset `o`. -/
def strandTableOk (d : List Byte) (o : Nat) : Bool :=
  let w := field d o 8
  let n := bits w 8 8
  decide (o + 16 + 8 * n ≤ d.length) && bits w 1 7 = 0 && bits w 48 16 = 0 && !bit (field d (o + 8) 8) 0
    && (List.range n).all fun j =>
      let e := field d (o + 16 + 8 * j) 8
      bits e 0 7 = 0 && bits e 24 8 = 0 && bits e 32 7 = 0 && decide (bits e 32 24 ≤ 0x0080_0000) && bits e 56 8 = 0

/-- R216: the kernel table at byte offset `o`. -/
def kernelTableOk (d : List Byte) (o : Nat) : Bool :=
  decide (o + 24 ≤ d.length) && field d o 8 = 2 && bits (field d (o + 8) 8) 36 28 = 0 && field d (o + 20) 4 = 0

/-- The tables that the ckpts of `.text` and the poll bundles of the images name. -/
def tablesOk (l : List LoadSec) (t : List (Nat × Nat)) : Bool :=
  let z := secData l .zlive
  let x := secData l .text
  ((List.range (x.length / 8)).all fun i =>
    match decodeScp (BitVec.ofNat 64 (field x (8 * i) 8)) with
    | .ok (.ckpt off) => strandTableOk z (8 * off.toNat)
    | _ => true)
    && t.all fun e => (imageBundles (secData l .zkim) e).all fun w =>
      match decodeBundle w with
      | .ok ⟨_, some (.loopPoll _ _), _, lit⟩ => decide (lit.toNat < 2 ^ 20) && kernelTableOk z (8 * lit.toNat)
      | _ => true

/-! ## ZCO_LOAD -/

/-- Maps the pages of a section and copies its bytes. -/
def putSec (s : State) (ctx : CtxId) (x : LoadSec) : Option State :=
  let a := x.sec.addr.toNat
  let mk := fun (t : State) (_ : Nat) => (allocZero t 0x1000).map fun y => (y.2, y.1 + x.sec.kind.pteBits)
  (mapPages ctx a 0x1000 mk (alignUp x.sec.size 0x1000 / 0x1000) s).map fun t => devPut t ctx x.sec.addr x.data

def putSecs (ctx : CtxId) : List LoadSec → State → Option State
  | [], s => some s
  | x :: l, s =>
    match putSec s ctx x with
    | none => none
    | some t => putSecs ctx l t

/-- R429: an object without a template section gets a table of one all-zero template, whose bytes are written. -/
def withTemplate (s : State) (ctx : CtxId) (l : List LoadSec) : State × List Section :=
  let secs := l.map LoadSec.sec
  if secs.any fun x => x.kind = .ztmpl && x.size != 0 then (s, secs)
  else
    let (t, a) := devAlloc s ctx 0x1_0000 64
    (devPut (t.chipEqx ctx a.toNat 64) ctx a (leBytes 64 0), (secs.filter fun x => x.kind != .ztmpl) ++ [⟨.ztmpl, a, 64⟩])

/-- The object enters the context: its handle is new. -/
def addCode (s : State) (ctx : CtxId) (secs : List Section) (syms : List Symbol) (t : List (Nat × Nat)) : State :=
  s.modCtx ctx fun c =>
    { c with codes := c.codes ++ [⟨c.nextHandle, secs, syms, t⟩], nextHandle := c.nextHandle + 1 }

/-- A range that holds every section. -/
def secRange (l : List Section) : Nat × Nat :=
  (l.foldl (fun m z => min m z.addr.toNat) (2 ^ 56), l.foldl (fun m z => max m (z.addr.toNat + alignUp z.size 0x1000)) 0)

/-- What comes after the image has been read; the mappings are made as R205 says. -/
def loadObject (s : State) (ctx : CtxId) (b : List Byte) : CmdEnd :=
  if !fileOk s ctx b then .fail cZcoBad 0
  else if !mmrOk b then .fail cMmrUnsupported 0
  else if !errataOk b then .fail cErratumUnsupported 0
  else
    let syms := parseSyms b
    let new := newSymbols syms
    let old := ctxSymbols s ctx
    if strongTwice (old ++ new) then .fail cDuplicateSymbol 0
    else
      let l := loadSecs b (parseShdrs b)
      match imageTable l with
      | none => .fail cZcoBad 0
      | some t =>
        match relocAll (old ++ new) syms t l (parseRelas b) with
        | none => .fail cZcoBad 0
        | some l1 =>
          if !(tmplOk l1 && imagesOk l1 t && tablesOk l1 t) then .fail cZcoBad 0
          else
            match putSecs ctx l1 s with
            | none => .bad 3
            | some s1 =>
              let h := (s.ctx ctx).nextHandle.toNat
              let (s2, secs) := withTemplate s1 ctx l1
              let (lo, hi) := secRange (l1.map LoadSec.sec)
              .shot (h + if weakLost old new then 2 ^ 40 else 0) (addCode s2 ctx secs new t) ctx lo hi []

/-- Reads Equinox's operand; a page that the host holds makes the command wait for it (R203). -/
def CmdEnd.reading (s : State) (ctx : CtxId) (va n : Nat) (k : List Byte → CmdEnd) : CmdEnd :=
  match gRead s .none ctx .equinox va n with
  | .ok b => k b
  | .error (c, a) =>
    if repairable s ctx a c then
      .later (.page ctx (BitVec.ofNat 64 a)) 0 (askPage s ctx (BitVec.ofNat 64 a))
    else .fail c 0

def zcoLoad (s : State) (c : Cmd) : CmdEnd :=
  .reading s c.ctx c.a0.toNat c.a1.toNat (loadObject (s.chipEqx c.ctx c.a0.toNat c.a1.toNat) c.ctx)

/-! ## ZCO_UNLOAD -/

/-- The frames of a section; its entries are cleared. -/
def dropSec (ctx : CtxId) (x : State × List Nat) (z : Section) : State × List Nat :=
  if inDevArea z.addr.toNat z.size then x
  else
    match unmapRange x.1 ctx z.addr.toNat (alignUp z.size 0x1000) with
    | none => x
    | some (t, fs) => (t, x.2 ++ fs)

/-- R233, R429: refused while a live launch names the object; ends after the shootdown. -/
def zcoUnload (s : State) (c : Cmd) : CmdEnd :=
  match codeOf s c.ctx c.a0 with
  | none => .bad 1
  | some o =>
    if s.launches.any fun l => !l.gone && l.ctx = c.ctx && l.r.code = c.a0 then .bad 4
    else
      let s1 := s.modCtx c.ctx fun x => { x with codes := x.codes.filter fun y => y.handle != c.a0 }
      let (t, fs) := o.secs.foldl (dropSec c.ctx) (s1, [])
      let (lo, hi) := secRange (o.secs.filter fun z => !inDevArea z.addr.toNat z.size)
      .shot 0 t c.ctx lo hi fs

end Sys2Proof.Machine
end

