-- ==== Sys2Proof/Machine/Cmd.lean ====
section
/-! DEFINITION. Queue packets: launches (R226, R227, R231, R232), the commands of R233, STATE_READ (R248), and svc
(R381). -/

namespace Sys2Proof.Machine

open Sys2Proof

/-! ## Contexts (R224) -/

/-- A new context: its root table and its RMT block are taken from the interleaved region (R174, R201). -/
def makeCtx (s : State) (i : CtxId) (slk : Vector (BitVec 12) 4) (kick : W64) : Option State :=
  (allocZero s 0x4000).bind fun x => (allocZero x.2 0x1_0000).map fun y =>
    y.2.setCtx i { Ctx.init with
      alive := true, ptbase := BitVec.ofNat 64 x.1, rmtbase := BitVec.ofNat 64 y.1, slkDef := slk
      tabA := { KickTable.init with kick := kick }, tabB := { KickTable.init with kick := kick } }

def slkDefaults (a : W64) : Vector (BitVec 12) 4 :=
  if a = 0 then Ctx.init.slkDef else Vector.ofFn fun i => BitVec.ofNat 12 (a.toNat / 2 ^ (12 * i.val))

/-- The context is being destroyed. -/
def ctxEnding (s : State) (i : CtxId) : Bool := s.dev.cmds.any fun p => p.wait = .ctxIdle i

/-- The lowest context that does not exist. -/
def freeCtx (s : State) : Option CtxId := (List.finRange 64).find? fun i => !(s.ctx i).alive && !ctxEnding s i

/-- R233. Bits above the four defaults of ARG0 are malformed (log 127). -/
def ctxCreate (s : State) (c : Cmd) : CmdEnd :=
  if c.a0.toNat / 2 ^ 48 ≠ 0 ∨ c.a1.toNat % 0x8000 ≠ 0 ∨ c.a1.toNat / 2 ^ 56 ≠ 0 then .bad 1
  else
    match freeCtx s with
    | none => .bad 3
    | some i =>
      match makeCtx s i (slkDefaults c.a0) c.a1 with
      | none => .bad 3
      | some t => .ok i.val t

/-- The frames and tables that a table at level `3 - n` reaches. -/
def tableFrames (m : List Host.Cell) : Nat → Nat → List Nat
  | 0, tbl => tbl :: (List.range 2048).flatMap fun i => frameOf (memNat m (tbl + 8 * i) 8)
  | n + 1, tbl => tbl :: (List.range 2048).flatMap fun i =>
      let e := memNat m (tbl + 8 * i) 8
      if bit e 0 && !bit e 1 then tableFrames m n (bits e 14 32 * 2 ^ 14) else frameOf e

/-- Revocation of a region (R173): GEN counts up modulo 4,096; one whose GEN was 4,095 is no longer VALID and its index is not used
again. -/
def Region.revoke (r : Region) : Region :=
  { r with gen := r.gen + 1, valid := r.valid && r.gen != 4095, freed := r.gen != 4095 }

/-- The slots of a context. -/
def ctxSlots (s : State) (i : CtxId) : List (Fin 64) :=
  (List.finRange 64).filter fun n => (s.slot n).q.state != .free && (s.slot n).q.ctx = i

/-- The context is gone: its queues have left their slots, its keys are revoked, its queue pairs end; what it mapped falls
free after the shootdown (log 21). A page request that the host has still to answer counts until then (R237). -/
def dropCtx (s : State) (i : CtxId) : State :=
  let x := s.ctx i
  let fs := bits x.rmtbase.toNat 16 40 * 2 ^ 16 :: tableFrames s.mem 3 (rootTable x)
  let asks := s.dev.pageAsks.filter fun a => a.ctx = i && a.sent.isSome && !a.gone
  let s1 := (ctxSlots s i).foldl freeSlot (asks.foldl (fun t a => endWork t (pageCmd a.ctx a.va) pageCode) s)
  let gs : List Gang := s1.gangs.map fun g => if g.ctx = i then { g with kept := false } else g
  let s2 := { s1.setCtx i Ctx.init with ctxSum := setSum s1.ctxSum i.val false, gangs := gs }
  startShootdown (s2.modDev fun d =>
    { d with
      regions := d.regions.map fun (r : Nat × Region) =>
        if r.2.ctx = i ∧ r.2.valid = true ∧ r.2.freed = false then (r.1, r.2.revoke) else r
      qps := d.qps.filter fun q => q.2.ctx != i
      fetched := d.fetched.filter fun f => f.ctx != i
      results := d.results.filter fun f => f.ctx != i
      pageAsks := d.pageAsks.filterMap fun a =>
        if a.ctx = i then (if a.sent.isSome then some { a with gone := true } else none) else some a })
    i 0 (2 ^ 56) fs

/-- A launch of the context is live. -/
def ctxBusy (s : State) (i : CtxId) : Bool :=
  (s.launches.any fun l => l.ctx = i && !l.gone) || (s.gangs.any fun g => g.ctx = i && g.live)

/-- The context ends: it takes no packet any more, and its Deal operations are cancelled (R194). What it holds goes once they
and its ACTIVE slots are done (R230). -/
def endCtx (s : State) (i : CtxId) : State :=
  (List.finRange 4).foldl (fun t d => cancelDeals t (fun o => o.ctx = i) d) (s.modCtx i fun c => { c with alive := false })

def ctxDestroy (s : State) (c : Cmd) : CmdEnd :=
  let n := c.a0.toNat
  let i : CtxId := Fin.ofNat 64 n
  if c.ctx ≠ 0 then .bad 2
  else if 63 < n ∨ (s.ctx i).alive = false then .bad 1
  else if n = 0 then .bad 2
  else if ctxBusy s i then .bad 4
  else .later (.ctxIdle i) 0 (endCtx s i)

/-- The context that a CTXID argument names, if the queue's context may name it (R234). -/
def ctxArg (s : State) (c : Cmd) (a : W64) : Except Nat CtxId :=
  if c.ctx ≠ 0 ∧ a.toNat ≠ c.ctx.val then .error 2
  else if a.toNat ≤ 63 ∧ (s.ctx (Fin.ofNat 64 a.toNat)).alive = true then .ok (Fin.ofNat 64 a.toNat)
  else .error 1

/-! ## Queues (R225) -/

def freeQid (x : Ctx) : Option Nat := (List.range 4096).find? fun n => x.queues.all fun q => q.qid.toNat != n

/-- A new queue; its QCB stands in both copies of the queue tables (R239). -/
def makeQueue (s : State) (ctx : CtxId) (qid : Nat) (ring : W64) (log2n prio : Nat) : State :=
  let q : Qcb := { Qcb.init with
    ring := ring.setWidth 56, log2n := BitVec.ofNat 5 log2n, prio := BitVec.ofNat 3 prio, eprio := BitVec.ofNat 3 prio
    qid := BitVec.ofNat 12 qid, ctx := ctx, svctime := BitVec.ofNat 64 s.time }
  (restoreKicks s ctx (BitVec.ofNat 12 qid)).modCtx ctx fun x =>
    { x.setPending (setBitAt x.pending qid false) with queues := x.queues ++ [⟨BitVec.ofNat 12 qid, q, q, false, false, 0⟩] }

def queueCreate (s : State) (c : Cmd) : CmdEnd :=
  let l := bits c.a1.toNat 0 5
  if bits c.a1.toNat 5 3 ≠ 0 ∨ bits c.a1.toNat 11 53 ≠ 0 ∨ l < 4 ∨ 16 < l ∨ c.a0.toNat % 64 ≠ 0 ∨ c.a0.toNat / 2 ^ 56 ≠ 0 then
    .bad 1
  else
    match freeQid (s.ctx c.ctx) with
    | none => .bad 3
    | some n => .ok n (makeQueue s c.ctx n c.a0 l (bits c.a1.toNat 8 3))

/-- A launch that waits to be dispatched outlives its queue, which a later queue of the same QID does not stand for (log 137). -/
def leaveQueue (ctx : CtxId) (qid : BitVec 12) (l : Launch) : Launch :=
  if l.ctx = ctx ∧ l.src = .queue (some qid) then { l with src := .queue none } else l

/-- The queue leaves the queue tables, and its slot, which is not ACTIVE; what had been fetched from it is not served. -/
def removeQueue (s : State) (ctx : CtxId) (qid : BitVec 12) : State :=
  let s1 := restoreKicks (match slotOf s ctx qid with
    | some i => freeSlot s i
    | none => s) ctx qid
  ({ s1 with launches := s1.launches.map (leaveQueue ctx qid) }.modCtx ctx fun x =>
    { x.setPending (setBitAt x.pending qid.toNat false) with queues := x.queues.filter fun q => q.qid != qid }).modDev
      fun d => { d with fetched := d.fetched.filter fun f => !(f.ctx == ctx && f.qid == qid) }

/-- The slot of the queue is ACTIVE. -/
def slotActive (s : State) (ctx : CtxId) (qid : BitVec 12) : Bool :=
  match slotOf s ctx qid with
  | some i => (s.slot i).q.state = .active
  | none => false

/-- A queue whose slot is ACTIVE, as that of the queue that names itself is, goes once the slot is MAPPED (R230). -/
def queueDestroy (s : State) (c : Cmd) : CmdEnd :=
  let n := c.a0.toNat
  let qid := BitVec.ofNat 12 n
  if 4095 < n ∨ !((s.ctx c.ctx).queues.any fun q => q.qid = qid) then .bad 1
  else if slotActive s c.ctx qid then .later (.slotIdle c.ctx qid) 0 s
  else .ok 0 (removeQueue s c.ctx qid)

/-! ## Regions (R167, R173) and queue pairs (R237) -/

/-- The lowest region index that is not in use and whose former key serves no request any longer (R173); index 0 is the
boot report's (R254). -/
def freeRegion (s : State) : Option Nat :=
  (List.range (s.dev.regions.length + 1)).map (· + 1) |>.find? fun i => i < 2 ^ 20 ∧
    ((assoc? s.dev.regions i).map Region.freed).getD true = true
      ∧ !s.dev.held.any fun x => x.accepted && x.h.key.toNat / 4096 == i

def addRegion (s : State) (i : Nat) (f : BitVec 12 → Region) : State :=
  let g := ((assoc? s.dev.regions i).map Region.gen).getD 1
  s.modDev fun d => { d with regions := assocSet d.regions i (f g) }

def regionRegister (s : State) (c : Cmd) : CmdEnd :=
  let f := c.a2.toNat
  let srf := bit f 1
  let b := c.a0.toNat
  let n := c.a1.toNat
  if f / 32 ≠ 0 ∨ bit f 0 = true ∨ b / 2 ^ 56 ≠ 0 ∨ n / 2 ^ 56 ≠ 0 ∨ b + n > 2 ^ 56
      ∨ (srf = true ∧ (b / 2 ^ 23 ≠ 0 ∨ n > 0x0080_0000)) then .bad 1
  else if !srf && inDevArea b n then .bad 2
  else
    match freeRegion s with
    | none => .bad 3
    | some i =>
      let g := ((assoc? s.dev.regions i).map Region.gen).getD 1
      .ok (i * 4096 + g.toNat) (addRegion s i fun g =>
        { valid := true, freed := false, srf := srf, rd := bit f 2, wr := bit f 3, atom := bit f 4, gen := g, ctx := c.ctx
          base := c.a0.setWidth 56, lenb := c.a1.setWidth 56
          glaunch := if srf then c.a3.setWidth 32 else 0, gtask := if srf then (c.a3 >>> 32).setWidth 32 else 0 })

def regionRevoke (s : State) (c : Cmd) : CmdEnd :=
  let k : W32 := c.a0.setWidth 32
  match (if c.a0.toNat / 2 ^ 32 = 0 then regionOf s k else none) with
  | none => .bad 1
  | some r =>
    if !r.valid || r.freed || r.gen != k.setWidth 12 || k.toNat / 4096 = 0 then .bad 1
    else if r.ctx ≠ c.ctx then .bad 2
    else .later (.revoke k) 0 (s.modDev fun d => { d with regions := assocSet d.regions (k.toNat / 4096) r.revoke })

def freeQp (s : State) : Option Nat :=
  (List.range (s.dev.qps.length + 1)).find? fun n => n < 16384 ∧ (assoc? s.dev.qps (BitVec.ofNat 14 n)).isNone = true

/-- The Ethernet ports (R16), numbered as log 112 says: 0 to 2 the scale-out ports of dies 0 to 2, 3 to 6 the host-attach ports
of dies 0 to 3. -/
def ethPorts : Nat := 7
def portScaleOut (n : Nat) : Bool := decide (n < 3)
def portDie (n : Nat) : DieId := if n < 3 then Fin.ofNat 4 n else Fin.ofNat 4 (n - 3)

/-- A port that does not exist, or a receive ring outside G-space, is a malformed argument (log 112); ARG0 itself names the peer
(log 126). -/
def qpCreate (s : State) (c : Cmd) : CmdEnd :=
  if ethPorts ≤ c.a1.toNat ∨ c.a2.toNat / 2 ^ 56 ≠ 0 then .bad 1
  else
  match freeQp s with
  | none => .bad 3
  | some n => .ok n (s.modDev fun d => { d with qps := assocSet d.qps (BitVec.ofNat 14 n) ⟨c.ctx, c.a0, c.a1, c.a2, 0⟩ })

/-! ## STATE_READ (R248) -/

/-- Captured or live state of a walker (R52), kept after a hang (R220); a walker without a range reads 0. -/
def walkerBytes (s : State) (die : DieId) (i : Fin 16) : List Byte :=
  let put (l n e : Nat) : List Byte :=
    leBytes 4 (((s.launch? l).map fun x => x.r.launchId.toNat).getD 0) ++ leBytes 4 n ++ leBytes 4 e
      ++ leBytes 4 (i.val + die.val * 16)
  match (s.die die).walkers[i] with
  | .active l n e => put l n e
  | .frozen l n e => put l n e
  | _ =>
    match (s.ctxs.toList.flatMap fun c => c.saved ++ c.kept).find? fun x => x.die = die && x.wnum = i.val with
    | some x => put x.launch x.next x.stop
    | none => leBytes 16 0

def Region.bytes (r : Region) : List Byte :=
  leBytes 8 ((if r.valid then 1 else 0) + (if r.srf then 2 else 0) + (if r.rd then 4 else 0) + (if r.wr then 8 else 0)
      + (if r.atom then 16 else 0) + r.gen.toNat * 2 ^ 8 + r.ctx.val * 2 ^ 32)
    ++ leBytes 8 r.base.toNat ++ leBytes 8 r.lenb.toNat ++ leBytes 8 (r.glaunch.toNat + r.gtask.toNat * 2 ^ 32)

/-- A device register by its number in R233. -/
def devReg (s : State) (n : Nat) (die : DieId) : W32 :=
  match n with
  | 1 => s.dev.memsplit
  | 2 => (s.die die).dispage
  | 3 => (s.die die).fetime
  | 4 => s.dev.fabtime
  | _ => (s.sp (Fin.ofNat 68 (17 * die.val))).pwrlim

/-- R233, R236: which dies a register number admits. -/
def devRegDie (n die : Nat) : Bool := if n = 1 ∨ n = 4 then die = 0 else (n = 2 ∨ n = 3 ∨ n = 5) ∧ die < 4

def freeBytes (tick k : Nat) : Nat → List Byte
  | 0 => []
  | n + 1 => freeBytes tick k n ++ leBytes 8 (Config.freeWord tick (k + n)).toNat

/-- The firmware slot that has been booted. -/
def Boot.running (b : Boot) : FlashSlot := if b.slot = 0 then b.slotA else b.slotB

/-- R253: device ID, the SHA-384 digest of the running image, security version, nonce, TIME; what the manual gives no value for,
the signatures among it, is free (log 22). -/
def attestBytes (s : State) (nonce : W64) : List Byte :=
  let b := s.dev.boot
  leBytes 8 b.deviceId.toNat ++ sha384 b.running.image ++ leBytes 8 b.running.secVer.toNat ++ leBytes 8 nonce.toNat
    ++ leBytes 8 s.time ++ freeBytes s.tick 6006 54

/-- An event source of R249: SKIND in bits [3:0], SNUM above them. -/
def sourceOk (n : Nat) : Bool :=
  let k := n / 16
  let hi := k / 256
  let lo := k % 256
  match n % 16 with
  | 0 => (decide (hi < 68) && (lo == 0 || decide (0x10 ≤ lo ∧ lo ≤ 0x30)))
      || (decide (0xF0 ≤ hi ∧ hi < 0xF4) && (lo == 0x40 || decide (0x50 ≤ lo ∧ lo < 0x53) || lo == 0x60 || lo == 0x70))
  | 1 => decide (k < 384)
  | 2 => decide (k < 16)
  | 3 => decide (k < 64)
  | 4 => decide (k < 4)
  | _ => false

/-- Bytes of RAS counters (log 22). -/
def rasBytes (s : State) (src : Nat) : List Byte :=
  let n := (s.dev.ras.find? fun x => x.1.toNat + x.2.1.toNat * 16 = src).map fun x => x.2.2
  leBytes 8 (n.getD 0) ++ freeBytes s.tick 6100 7

/-- Power, temperature and freeze steps of a die (R255, log 22). -/
def telemetry (s : State) (die : DieId) : List Byte :=
  let fz := ((List.finRange 68).filter fun i => dieOf i = die).foldl (fun n i => n + (s.sp i).govTotal) 0
  freeBytes s.tick 6200 1 ++ leBytes 8 (s.die die).temp ++ leBytes 8 fz ++ leBytes 8 0

/-- The stored size of the object of class 11 that begins at an address of the context: a save area, a checkpoint image
or a work record. Of a gang that has ended they are left only after a hang (R220). -/
def storedSize (s : State) (ctx : CtxId) (a : W64) : Option Nat :=
  let seats := (s.gangs.filter fun g => g.ctx = ctx && (g.live || g.kept)).flatMap Gang.seats
  match seats.find? fun q => q.save = a ∧ q.area.isSome = true with
  | some q => q.area.map fun x => x.bytes.length
  | none =>
    match seats.find? fun q => q.img = a with
    | some _ => some (8 * (64 + 32 + 16 + 1 + 4 + 7))
    | none => if s.cores.toList.any fun c => c.log.any fun w => w.addr = a && w.what.ctx = ctx then some 64 else none

/-- The bytes of an object, or the VALUE of the refusal. `ctx` is the context that reads; `svc` says that a strand
does. -/
def readObject (s : State) (ctx : CtxId) (svc : Bool) (cls : Nat) (x : W64) : Except Nat (List Byte) :=
  let n := x.toNat
  if cls = 6 then
    if 63 < n then .error 1
    else if Fin.ofNat 64 n ≠ ctx ∧ (svc ∨ ctx ≠ 0) then .error 2
    else if !(s.ctx (Fin.ofNat 64 n)).alive then .error 1
    else
      let c := s.ctx (Fin.ofNat 64 n)
      .ok (leBytes 8 c.slkctl.toNat ++ leBytes 8 c.slkcnt.toNat ++ leBytes 8 c.ctxwd.toNat ++ leBytes 8 c.ordmode.toNat)
  else if cls = 11 then
    match storedSize s ctx x with
    | none => .error (if svc then 2 else 1)
    | some k =>
      match gRead s .none ctx .device n k with
      | .ok b => .ok b
      | .error _ => .error 1
  else if svc then .error 2
  else if cls = 0 ∨ 11 < cls then .error 1
  else if ctx ≠ 0 then .error 2
  else
    match cls with
    | 1 => if n < 64 then .ok (walkerBytes s (Fin.ofNat 4 (n / 16)) (Fin.ofNat 16 n)) else .error 1
    | 2 => if n < 2 ^ 20 then .ok (((assoc? s.dev.regions n).map Region.bytes).getD (leBytes 32 0)) else .error 1
    | 3 =>
      if n < 68 * 16 then
        .ok ((((s.sp (Fin.ofNat 68 (n / 16))).sto.records[n % 16]?).map SfRecord.bytes).getD (leBytes 32 0))
      else .error 1
    | 4 => if n < 64 then .ok ((s.slot (Fin.ofNat 64 n)).q.now s).bytes else .error 1
    | 5 =>
      if n / 2 ^ 16 = 0 ∧ devRegDie (n % 256) (n / 256) = true then
        .ok (leBytes 8 (devReg s (n % 256) (Fin.ofNat 4 (n / 256))).toNat)
      else .error 1
    | 7 => if n = 0 then .ok [] else .error 1
    | 8 => if sourceOk n then .ok (rasBytes s n) else .error 1
    | 9 => if n < 4 then .ok (telemetry s (Fin.ofNat 4 n)) else .error 1
    | _ => if s.dev.boot.attest < 2 ^ 20 then .ok (attestBytes s x) else .error 3

/-- R253: the counter is advanced before the report is released. -/
def noteAttest (s : State) (cls : Nat) : State :=
  if cls = 10 then s.modDev fun d => { d with boot := { d.boot with attest := d.boot.attest + 1 } } else s

/-- At most ARG3 bytes of the object are written at ARG2. -/
def stateRead (s : State) (c : Cmd) (svc : Bool) : CmdEnd :=
  match readObject s c.ctx svc c.a0.toNat c.a1 with
  | .error v => .bad v
  | .ok b =>
    let d := b.take c.a3.toNat
    match gWrite s .none c.ctx .equinox c.a2.toNat d with
    | .ok t => .ok d.length (noteAttest (t.chipEqx c.ctx c.a2.toNat d.length) c.a0.toNat)
    | .error (k, a) =>
      if repairable s c.ctx a k then
        .later (.page c.ctx (BitVec.ofNat 64 a)) 0 (askPage s c.ctx (BitVec.ofNat 64 a))
      else .fail k 0

/-! ## Pre-emption, stops and registers -/

/-- R210: Equinox asks every gang of the context to leave its SPs. -/
def preemptCmd (s : State) (c : Cmd) : CmdEnd :=
  match ctxArg s c c.a0 with
  | .error v => .bad v
  | .ok i => .later (.preempt i) 0 (if (s.ctx i).preempt.isSome then s else requestPreempt s i)

/-- R210: as a forced stop, unless a seat is inside a NO_ROLLBACK region. -/
def stopForMigration (s : State) (i : CtxId) : State :=
  let s1 := if (s.ctx i).preempt.isSome then s else requestPreempt s i
  (residentGangs s1 i).foldl (fun t g =>
    match t.gang? g with
    | some x => if gangNoRb t x then t else haltGang t g
    | none => t) s1

def migrateCmd (s : State) (c : Cmd) : CmdEnd :=
  match ctxArg s c c.a0 with
  | .error v => .bad v
  | .ok i => if c.a1.toNat > 2047 then .bad 1 else .later (.preempt i) 0 (stopForMigration s i)

def jobStop (s : State) (c : Cmd) : CmdEnd :=
  match (if c.a0.toNat / 2 ^ 32 = 0 then liveLaunch s c.ctx (c.a0.setWidth 32) else none) with
  | none => .bad 1
  | some li => .ok 0 (stopJobs s [li] cJobStopped)

/-- A 16-bit field of CTXWD: a write of 0 is stored as 1 (R219). -/
def wdField (v : W64) (k : Nat) : Nat := max 1 (bits v.toNat (16 * k) 16)

/-- R219, R181; the reserved bits of a value have no effect (R2). -/
def ctxSetreg (s : State) (c : Cmd) : CmdEnd :=
  if c.a0 = 1 then
    .ok 0 (s.modCtx c.ctx fun x =>
      { x with ctxwd := BitVec.ofNat 64 (wdField c.a1 0 + wdField c.a1 1 * 2 ^ 16 + wdField c.a1 2 * 2 ^ 32) })
  else if c.a0 = 2 then .ok 0 (s.modCtx c.ctx fun x => { x with slkctl := c.a1.setWidth 32 &&& 1 })
  else .bad 1

def devRegWidth (n : Nat) : Nat := if n = 1 then 7 else if n = 2 then 20 else if n = 5 then 12 else 24

/-- R236. -/
def devSetreg (s : State) (c : Cmd) : CmdEnd :=
  let n := c.a0.toNat
  let v := c.a2.toNat
  let die : DieId := Fin.ofNat 4 c.a1.toNat
  if c.ctx ≠ 0 then .bad 2
  else if !devRegDie n c.a1.toNat || v / 2 ^ devRegWidth n != 0 || (n = 1 && decide (64 < v)) then .bad 1
  else
    let w : W32 := c.a2.setWidth 32
    .ok 0 (match n with
      | 1 => s.modDev fun d => { d with boot := { d.boot with bootK := w.setWidth 7 } }
      | 2 => setDispage s die w
      | 3 => setFetime s die w
      | 4 => setFabtime s w
      | _ => ((List.finRange 68).filter fun i => dieOf i = die).foldl (fun t i => setPwrlim t i w) s)

/-! ## Launch records (R227, R231, R232) -/

/-- The QCB of the queue holds the record's address until the launch has been dispatched (R229). -/
def holdRecord (s : State) (ctx : CtxId) (qid : BitVec 12) (lrec : W64) : State :=
  modQcb s ctx qid fun q => { q with held := lrec }

/-- R227, R232: the record that a LAUNCH packet names in ARG0 is accepted, or rejected with the cause in the result word. While
Equinox brings a HOST page of the record, the packet waits among the commands, under code 0 (R203). -/
def launchRecord (s : State) (c : Cmd) : State :=
  if c.a0.toNat % 128 ≠ 0 then endCmd s c 0 cLaunchRecordBad 0
  else
    match gRead s .none c.ctx .equinox c.a0.toNat 128 with
    | .error (k, va) =>
      let w : W64 := BitVec.ofNat 64 va
      if repairable s c.ctx va k then
        askPage (s.modDev fun d => { d with cmds := d.cmds ++ [⟨c, 0, .page c.ctx w, 0⟩] }) c.ctx w
      else endCmd s c 0 k 0
    | .ok b =>
      let s := s.chipEqx c.ctx c.a0.toNat 128
      let r := parseLRec b
      match checkLRec s c.ctx r with
      | some k => endCmd s c 0 k 0
      | none => endCmd (holdRecord (acceptLaunch s c.ctx r 1 (.queue (some c.qid)) none none) c.ctx c.qid c.a0) c 0 0 0

/-! ## The commands -/

/-- The effect of a command by its code (R233). -/
def cmdEffect (code : Nat) (c : Cmd) (s : State) : CmdEnd :=
  match code with
  | 0x01 => ctxCreate s c
  | 0x02 => ctxDestroy s c
  | 0x03 => memMap s c
  | 0x04 => memUnmap s c
  | 0x05 => queueCreate s c
  | 0x06 => queueDestroy s c
  | 0x07 => zcoLoad s c
  | 0x08 => zcoUnload s c
  | 0x09 => regionRegister s c
  | 0x0A => regionRevoke s c
  | 0x0B => qpCreate s c
  | 0x0C => stateRead s c false
  | 0x0D => preemptCmd s c
  | 0x0E => jobStop s c
  | 0x0F => ctxSetreg s c
  | 0x10 => migrateCmd s c
  | 0x11 => devSetreg s c
  | 0x12 => rmtSet s c
  | _ => .bad 1

/-- A packet that waits for a page goes on once the page is present. -/
def rerunOne (s : State) (p : PendingCmd) : State :=
  let s1 := s.modDev fun d => { d with cmds := d.cmds.filter fun x => x != p }
  if p.code = 0 then launchRecord s1 p.cmd
  else
    match cmdEffect p.code.toNat p.cmd s1 with
    | .ok v t => endCmd t p.cmd p.code 0 v
    | .fail k v => endCmd s1 p.cmd p.code k v
    | .later w v t => t.modDev fun d => { d with cmds := d.cmds ++ [⟨p.cmd, p.code, w, v⟩] }

def pageHere (s : State) (p : PendingCmd) : Bool :=
  match p.wait with
  | .page ctx va => !(hostEntry s ctx va.toNat).isSome
  | _ => false

/-- Runs again every command whose page has come. -/
def rerunCmds (s : State) : State := (s.dev.cmds.filter (pageHere s)).foldl rerunOne s

/-- The entry of a queue that is in no slot is read, and a bad copy of it restored (R239). -/
def readEntry (s : State) (ctx : CtxId) (qid : BitVec 12) : State :=
  if (slotOf s ctx qid).isNone then restoreQcb s ctx qid else s

/-- R227: no packet of an ERRORED queue is consumed. -/
def queueDead (s : State) (ctx : CtxId) (qid : BitVec 12) : Bool :=
  match slotOf s ctx qid with
  | some i => (s.slot i).q.state = .errored
  | none => ((tableQcb s ctx qid).map fun q => decide (q.state = .errored)).getD true

/-- A queue becomes ERRORED in its slot or in the queue tables, and its owner is told (R227, R239). -/
def failQueue (s : State) (ctx : CtxId) (qid : BitVec 12) (c : Cause) : State :=
  match slotOf s ctx qid with
  | some i => queueErrored s i c
  | none =>
    emitQueue (match userQueue s ctx qid with
      | some u =>
        let q := u.live.getD u.a
        putQcb s { q with state := .errored, qseq := q.qseq + 1 }
      | none => s) ctx c qid

/-- Nothing of the queue that was served before is still open: its earlier commands have ended (R234), and no launch of it waits to be
dispatched (R231). -/
def queueClear (s : State) (ctx : CtxId) (qid : BitVec 12) : Bool :=
  !(s.dev.cmds.any fun p => p.cmd.ctx = ctx && p.cmd.qid = qid)
    && !(s.launches.any fun l => l.ctx = ctx && l.phase = .accepted && l.src = .queue (some qid) && !l.gone)

/-- The queue is free to be served (R231, R234): its context exists, it is not ERRORED, and it is clear. -/
def queueFree (s : State) (ctx : CtxId) (qid : BitVec 12) : Bool :=
  (s.ctx ctx).alive && !queueDead s ctx qid && queueClear s ctx qid

/-- The queue goes, or its context does, as soon as its slot is no longer ACTIVE (R230). -/
def queueLeaves (s : State) (ctx : CtxId) (qid : BitVec 12) : Bool :=
  !(s.ctx ctx).alive || s.dev.cmds.any fun p => p.wait = .slotIdle ctx qid

/-! ## Packets (R226, R227) -/

/-- The oldest packet fetched from a queue and not yet acted on. -/
def nextPacket (s : State) (ctx : CtxId) (qid : BitVec 12) : Option Fetched :=
  s.dev.fetched.find? fun f => f.ctx = ctx && f.qid = qid

/-- A fetched packet is acted on once. -/
def dropPacket (s : State) (f : Fetched) : State := s.modDev fun d => { d with fetched := d.fetched.erase f }

/-- Equinox acts on a fetched packet, whose queue's entry it has read: a misaligned RSLT makes the queue ERRORED (R227, R238,
R239). -/
def actOn (s : State) (f : Fetched) (k : State → State) : State :=
  let s := readEntry s f.ctx f.qid
  if f.cmd.rslt.toNat % 8 ≠ 0 then
    endWork (failQueue (beginWork (dropPacket s f) f.cmd (packetCode f.data)) f.ctx f.qid cEqxQpacketBad) f.cmd
      (packetCode f.data)
  else k (dropPacket s f)

/-- A core fetches from the slot: its earlier packets have been served, and nothing of them blocks the queue (R231); or the queue
leaves, and what is fetched is not served. -/
def slotServed (s : State) (i : Fin 64) : Bool :=
  let q := (s.slot i).q
  q.state = .active
    && (queueLeaves s q.ctx q.qid || (queueClear s q.ctx q.qid && (nextPacket s q.ctx q.qid).isNone))

/-- The ACTIVE slot that cores serve next (R231). -/
def nextServed (s : State) : Option (Fin 64) :=
  firstSlot servedBefore s ((List.finRange 64).filter (slotServed s))

/-- A core fetches a packet of that slot (R227, R231). -/
def fwFetch (s : State) : State :=
  match nextServed s with
  | some i => (fetchSlot s i none).2.2
  | none => s

/-- The packet of this type, code and operands is the next of its queue and may be served. -/
def packetReady (s : State) (typ : Nat) (code : BitVec 16) (c : Cmd) : Option Fetched :=
  if queueFree s c.ctx c.qid then
    (nextPacket s c.ctx c.qid).filter fun f => packetType f.data = typ && packetCode f.data = code && f.cmd = c
  else none

/-- One command of a queue. -/
def command (row : String) (code : BitVec 16) (c : Cmd) (s : State) : Out :=
  match packetReady s 2 code c with
  | some f => .next (actOn s f fun t => runCmd t c code (cmdEffect code.toNat c))
  | none => .refused (.notEnabled row)

def execCtxCreate (c : Cmd) (s : State) : Out := command "CTX_CREATE" 0x01 c s
def execCtxDestroy (c : Cmd) (s : State) : Out := command "CTX_DESTROY" 0x02 c s
def execMemMap (c : Cmd) (s : State) : Out := command "MEM_MAP" 0x03 c s
def execMemUnmap (c : Cmd) (s : State) : Out := command "MEM_UNMAP" 0x04 c s
def execQueueCreate (c : Cmd) (s : State) : Out := command "QUEUE_CREATE" 0x05 c s
def execQueueDestroy (c : Cmd) (s : State) : Out := command "QUEUE_DESTROY" 0x06 c s
def execZcoLoad (c : Cmd) (s : State) : Out := command "ZCO_LOAD" 0x07 c s
def execZcoUnload (c : Cmd) (s : State) : Out := command "ZCO_UNLOAD" 0x08 c s
def execRegionRegister (c : Cmd) (s : State) : Out := command "REGION_REGISTER" 0x09 c s
def execRegionRevoke (c : Cmd) (s : State) : Out := command "REGION_REVOKE" 0x0A c s
def execQpCreate (c : Cmd) (s : State) : Out := command "QP_CREATE" 0x0B c s
def execStateRead (c : Cmd) (s : State) : Out := command "STATE_READ" 0x0C c s
def execPreempt (c : Cmd) (s : State) : Out := command "PREEMPT" 0x0D c s
def execJobStop (c : Cmd) (s : State) : Out := command "JOB_STOP" 0x0E c s
def execCtxSetreg (c : Cmd) (s : State) : Out := command "CTX_SETREG" 0x0F c s
def execMigrate (c : Cmd) (s : State) : Out := command "MIGRATE" 0x10 c s
def execDevSetreg (c : Cmd) (s : State) : Out := command "DEV_SETREG" 0x11 c s
def execRmtSet (c : Cmd) (s : State) : Out := command "RMT_SET" 0x12 c s

/-! ## LAUNCH packets (R227, R231, R232) -/

def execLaunchPacket (ctx : CtxId) (qid : BitVec 12) (lrec rslt : W64) (s : State) : Out :=
  let c : Cmd := ⟨ctx, qid, rslt, lrec, 0, 0, 0⟩
  match packetReady s 1 0 c with
  | some f => .next (actOn s f fun t => launchRecord (beginWork t c 0) c)
  | none => .refused (.notEnabled "LAUNCH_PACKET")

/-- The instruction that a packet stands for; none when its code is no command of R233. -/
def packetInstr (f : Fetched) : Option Instr :=
  let c := f.cmd
  if packetType f.data = 1 then some (.launchPacket c.ctx c.qid c.a0 c.rslt)
  else
    match (packetCode f.data).toNat with
    | 0x01 => some (.ctxCreate c)
    | 0x02 => some (.ctxDestroy c)
    | 0x03 => some (.memMap c)
    | 0x04 => some (.memUnmap c)
    | 0x05 => some (.queueCreate c)
    | 0x06 => some (.queueDestroy c)
    | 0x07 => some (.zcoLoad c)
    | 0x08 => some (.zcoUnload c)
    | 0x09 => some (.regionRegister c)
    | 0x0A => some (.regionRevoke c)
    | 0x0B => some (.qpCreate c)
    | 0x0C => some (.stateRead c)
    | 0x0D => some (.preempt c)
    | 0x0E => some (.jobStop c)
    | 0x0F => some (.ctxSetreg c)
    | 0x10 => some (.migrate c)
    | 0x11 => some (.devSetreg c)
    | 0x12 => some (.rmtSet c)
    | _ => none

/-- R233: a packet of any other code ends with EQX_QPACKET_BAD, VALUE 1. -/
def serveOther (s : State) (f : Fetched) : State :=
  match packetReady s 2 (packetCode f.data) f.cmd with
  | some g => actOn s g fun t => runCmd t g.cmd (packetCode g.data) fun _ => .bad 1
  | none => s

/-! ## Commands that end later than they begin (R233) -/

/-- What a pending command waits for has come. -/
def waitOver (s : State) (w : CmdWait) : Bool :=
  match w with
  | .shootdown n => !s.dev.shoots.any fun x => x.num = n
  | .revoke key => !s.dev.held.any fun x => x.h.key = key && x.accepted
  | .preempt ctx => ctxStopped s ctx
  | .slotIdle ctx qid => !slotActive s ctx qid
  | .ctxIdle ctx => !dealsOf s ctx && (ctxSlots s ctx).all fun i => (s.slot i).q.state != .active
  | .page .. => false

/-- A served pre-emption request is over: what the context queued meanwhile is saved too (R52, R194). A context under migration
stays stopped. -/
def preemptEnd (s : State) (ctx : CtxId) (code : BitVec 16) : State :=
  let s1 := saveQueued s ctx
  if code = 0x10 then s1 else s1.modCtx ctx fun c => { c with preempt := none }

/-- A pending command whose wait is over ends, or comes to its next wait. -/
def settleOne (s : State) (p : PendingCmd) : State :=
  match p.wait with
  | .ctxIdle i =>
    let t := dropCtx s i
    t.modDev fun d => { d with cmds := d.cmds ++ [{ p with wait := .shootdown d.shootNum }] }
  | .slotIdle ctx qid => endCmd (removeQueue s ctx qid) p.cmd p.code 0 p.val
  | .preempt ctx => endCmd (preemptEnd s ctx p.code) p.cmd p.code 0 p.val
  | _ => endCmd s p.cmd p.code 0 p.val

/-- Ends the pending commands whose wait is over. -/
def settleCmds (s : State) : State :=
  (s.dev.cmds.filter fun p => waitOver s p.wait).foldl settleOne
    (s.modDev fun d => { d with cmds := d.cmds.filter fun p => !waitOver s p.wait })

/-! ## svc (R381) -/

/-- The service that a strand asks for; its answer goes to s8, and Equinox has a work record of it (R238). While Equinox brings a
HOST page of its destination, the strand stays at the svc. -/
def service (code : BitVec 20) (s : State) : State :=
  let answer (t : State) (k : Cause) (v : Nat) : State :=
    (noteFault t s.myCtx s.me.r.pc cSvcCall).retireTo 8 (resultVal k v)
  if code = 0 then answer s 0 0
  else if code = 1 then
    let c : Cmd := ⟨s.myCtx, 0, 0, s.sreg 9, s.sreg 10, s.sreg 11, s.sreg 12⟩
    match stateRead s c true with
    | .ok v t => answer t 0 v
    | .fail k v => answer s k v
    | .later (.page _ va) _ t => t.modMe fun p => { p with pend := .repair cPageNotPresent va }
    | .later _ _ t => t.waits
  else answer s cEqxQpacketBad 1

/-- R381: the service follows a fence.acqrel.device. -/
def execSvc (code : BitVec 20) (s : State) : Out := .next (s.release 3 fun u => service code u.fenceNow)

end Sys2Proof.Machine
end

