-- ==== Sys2Proof/Machine/Rdma.lean ====
section
/-! DEFINITION. RoCEv2 at the host-attach and scale-out ports (R137, R152, R169, R228, R237) and the boot report
(R254). -/

namespace Sys2Proof.Machine

open Sys2Proof

/-! ## Keys (R169, R237) -/

def qpOf (s : State) (n : BitVec 14) : Option Qp := assoc? s.dev.qps n

/-- The region that an rkey opens for `n` bytes at `va`, if every check of R169 before the translation passes and the
key belongs to the queue pair's context. -/
def rkeyRegion (s : State) (q : Qp) (key : W32) (va n : Nat) (allow : Region → Bool) : Option Region :=
  match regionOf s key with
  | none => none
  | some r =>
    if r.valid && key.setWidth 12 = r.gen && !r.srf && decide (r.base.toNat ≤ va)
        && decide (va + n ≤ r.base.toNat + r.lenb.toNat) && allow r && r.ctx = q.ctx then some r
    else none

def ethReply (s : State) (o : EthOut) : State := s.ethSend o
/-- The remote access error, after the event record of a page that the request could not use (log 23). -/
def rdmaFault (s : State) (qp : BitVec 14) (ctx : CtxId) (c : Cause) : State :=
  let s1 := if c = cMediaError then s else emit s 0 0 cRemotePageFault 1 ctx s.dev.accId 0
  ethReply s1 (.remoteAccessError qp)

/-! ## RDMA WRITE -/

/-- R228: the kick units that a write of `d` at `va` covers whole, in ascending order. The port reads the kick filter first (R239; log
138). -/
def kickUnits (s : State) (ctx : CtxId) (va : Nat) (d : List Byte) : State :=
  let base := (s.ctx ctx).kick.toNat
  let s := restoreKicks s ctx (BitVec.ofNat 12 ((va - base) / 8))
  if va + d.length ≤ base ∨ 0x8000 + base ≤ va then s
  else
    (List.range 4096).foldl (fun t q =>
      let u := base + 8 * q
      if va ≤ u ∧ u + 8 ≤ va + d.length then kick t ctx (BitVec.ofNat 12 q) (BitVec.ofNat 32 (field d (u - va) 4)) else t) s

/-- R152: the message is placed whole, then its kicks take effect. -/
def execRdmaWrite (q : RdmaReq) (data : List Byte) (s : State) : Out :=
  match qpOf s q.qp with
  | none => .refused (.notEnabled "RDMA_WRITE")
  | some p =>
    let va := q.va.toNat
    .next (match rkeyRegion s p q.key va data.length Region.wr with
      | none => ethReply s (.remoteAccessError q.qp)
      | some r =>
        match gWrite s .none r.ctx .outside va data with
        | .error (c, _) => rdmaFault s q.qp r.ctx c
        | .ok t => ethReply (kickUnits (t.chipPort r.ctx va data.length) r.ctx va data) (.ack q.qp))

/-! ## RDMA READ and the boot report (R254) -/

/-- The spares in use, 4 bits per die. -/
def spareMask (s : State) : Nat :=
  (List.finRange 4).foldl (fun n d => n + if s.dev.spareUsed[d] then 2 ^ (4 * d.val) else 0) 0

/-- Addresses that Equinox chooses at boot (log 24). -/
def bootKick : Nat := 0x10_0000
def bootRing : Nat := 0x10_8000
def bootEvents : Nat := 0x10_C000
def bootLog2n : Nat := 8
def bootBytes : Nat := 0x2_D000
def bootKey : Nat := 0x1001

def bootReport (s : State) : List Byte :=
  let b := s.dev.boot
  let up := b.status = 0
  let slot := if b.slot = 0 then b.slotA else b.slotB
  let only (v : Nat) : Nat := if up then v else 0
  leBytes 8 b.deviceId.toNat
    ++ leBytes 4 (s.dev.accId.toNat + b.status.toNat * 2 ^ 16 + b.slot.toNat * 2 ^ 24)
    ++ leBytes 4 (spareMask s) ++ leBytes 8 (only bootRing) ++ leBytes 8 (only bootKick) ++ leBytes 8 (only bootKey)
    ++ leBytes 8 (only bootEvents) ++ leBytes 4 (only slot.secVer.toNat) ++ leBytes 4 (only slot.imgVer.toNat)
    ++ leBytes 8 1

/-- R152, R254. -/
def execRdmaRead (q : RdmaReq) (len : Nat) (s : State) : Out :=
  match qpOf s q.qp with
  | none => .refused (.notEnabled "RDMA_READ")
  | some p =>
    let va := q.va.toNat
    .next (if q.key = 1 ∧ p.ctx = 0 then
        (if va + len ≤ 64 then ethReply s (.readData q.qp (((bootReport s).drop va).take len))
          else ethReply s (.remoteAccessError q.qp))
      else
        match rkeyRegion s p q.key va len Region.rd with
        | none => ethReply s (.remoteAccessError q.qp)
        | some r =>
          match gRead s .none r.ctx .outside va len with
          | .error (c, _) => rdmaFault s q.qp r.ctx c
          | .ok d => ethReply (s.chipPort r.ctx va len) (.readData q.qp d))

/-! ## Atomics -/

/-- A host atomic (R152): `f` gives the new value. -/
def hostAtomic (s : State) (q : RdmaReq) (p : Qp) (f : Nat → Nat) : State :=
  let va := q.va.toNat
  if va % 8 ≠ 0 then ethReply s (.remoteAccessError q.qp)
  else
    match rkeyRegion s p q.key va 8 Region.atom with
    | none => ethReply s (.remoteAccessError q.qp)
    | some r =>
      match translate s .none r.ctx va .amo .outside with
      | .error c => rdmaFault s q.qp r.ctx c
      | .ok lf =>
        let pa := lf.pa va
        if poisoned s.dev.poison pa 8 then rdmaFault s q.qp r.ctx cMediaError
        else
          let old := leNat (s.physRead pa 8)
          ethReply ((s.chipPort r.ctx va 8).physWrite pa (leBytes 8 (f old))) (.atomicOld q.qp (BitVec.ofNat 64 old))

def execCas (q : RdmaReq) (cmp new : W64) (s : State) : Out :=
  match qpOf s q.qp with
  | none => .refused (.notEnabled "CAS")
  | some p => .next (hostAtomic s q p fun old => if old = cmp.toNat then new.toNat else old)

def execFetchAdd (q : RdmaReq) (addend : W64) (s : State) : Out :=
  match qpOf s q.qp with
  | none => .refused (.notEnabled "FETCH_ADD")
  | some p => .next (hostAtomic s q p fun old => (old + addend.toNat) % 2 ^ 64)

/-! ## SEND and connections (R237; log 23) -/

/-- R237: the payload follows what the receive ring already holds. -/
def execSend (qp : BitVec 14) (data : List Byte) (s : State) : Out :=
  match qpOf s qp with
  | none => .refused (.notEnabled "SEND")
  | some p =>
    .next (match gWrite s .none p.ctx .outside (p.ring.toNat + p.got) data with
      | .error (c, _) => rdmaFault s qp p.ctx c
      | .ok t =>
        let u := t.chipPort p.ctx (p.ring.toNat + p.got) data.length
        ethReply (u.modDev fun d => { d with qps := assocSet d.qps qp { p with got := p.got + data.length } }) (.ack qp))

/-- R237: a connection that offers a path MTU below 4,096 is refused. A peer that no QP_CREATE has named is connected to
context 0 at the host-attach port of die 0 (R254; log 112). -/
def execConnectionManagementMad (peer : W64) (mtu : Nat) (s : State) : Out :=
  .next (if mtu < 4096 then ethReply s (.connectReply false)
    else if s.dev.qps.any fun x => x.2.peer = peer then ethReply s (.connectReply true)
    else
      match freeQp s with
      | none => ethReply s (.connectReply false)
      | some n =>
        ethReply (s.modDev fun d => { d with qps := assocSet d.qps (BitVec.ofNat 14 n) ⟨0, peer, 3, 0, 0⟩ })
          (.connectReply true))

/-- R237: any other opcode gets a NAK, invalid request. -/
def rdmaOther (s : State) (qp : BitVec 14) : State :=
  match qpOf s qp with
  | some _ => ethReply s (.invalidRequest qp)
  | none => s

/-- The port that a packet to host or peer leaves by: that of its queue pair; a page request and a connection reply leave by the
host-attach port of die 0 (log 112). -/
def EthOut.port (s : State) (o : EthOut) : Nat :=
  let of (qp : BitVec 14) : Nat := ((qpOf s qp).map fun q => q.port.toNat).getD 3
  match o with
  | .ack q => of q
  | .readData q _ => of q
  | .atomicOld q _ => of q
  | .remoteAccessError q => of q
  | .write q _ _ => of q
  | .invalidRequest q => of q
  | .pageRequest _ _ => 3
  | .connectReply _ => 3

end Sys2Proof.Machine
end

