-- ==== Sys2Proof/Machine/Sahat.lean ====
section
/-! DEFINITION. Sahat packets that arrive at the device (R162, R169, R170), and what ends a wait on the fabric (R171,
R178, R169 steps 6 and 8). -/

namespace Sys2Proof.Machine

open Sys2Proof

/-- A packet for this device from another one, on a station that is up. -/
def arrives (s : State) (h : SahatHdr) : Bool :=
  h.dst = s.dev.accId && h.src != s.dev.accId && s.dev.lanes[h.stn.toNat] != 0

/-- A TYPE that no other row of the table takes (R162): reserved. -/
def reservedType (t : BitVec 6) : Bool := t = 0 || decide (9 < t.toNat)

/-- A request of one type. -/
def arriveReq (row : String) (ok : Bool) (h : SahatHdr) (d : List Byte) (s : State) : Out :=
  if ok && arrives s h then .next (request s h d) else .refused (.notEnabled row)

/-- A READ; a packet of a reserved TYPE is checked here too and gets its NAK (R162). -/
def execRead (h : SahatHdr) (s : State) : Out := arriveReq "READ" (h.typ = tREAD || reservedType h.typ) h [] s
def execPwr (h : SahatHdr) (data : List Byte) (s : State) : Out := arriveReq "PWR" (h.typ = tPWR) h data s
def execNpwr (h : SahatHdr) (data : List Byte) (s : State) : Out := arriveReq "NPWR" (h.typ = tNPWR) h data s
def execFewr (h : SahatHdr) (data : List Byte) (s : State) : Out := arriveReq "FEWR" (h.typ = tFEWR) h data s
def execAtom (h : SahatHdr) (data : List Byte) (s : State) : Out := arriveReq "ATOM" (h.typ = tATOM) h data s

/-- A reply of one type. -/
def arriveReply (row : String) (typ : BitVec 6) (h : SahatHdr) (d : List Byte) (s : State) : Out :=
  if h.typ = typ && arrives s h then .next (reply s h typ d) else .refused (.notEnabled row)

def execRdata (h : SahatHdr) (data : List Byte) (s : State) : Out := arriveReply "RDATA" tRDATA h data s
def execAdata (h : SahatHdr) (data : List Byte) (s : State) : Out := arriveReply "ADATA" tADATA h data s
def execAck (h : SahatHdr) (s : State) : Out := arriveReply "ACK" tACK h [] s
def execNak (h : SahatHdr) (s : State) : Out := arriveReply "NAK" tNAK h [] s

/-- R171: the request has waited longer than the FABTIME in force when it was issued. -/
def execFabricTimeout (ssid : BitVec 16) (tag : BitVec 12) (s : State) : Out :=
  match s.dev.txns.find? fun t => t.h.ssid = ssid && t.h.tag = tag with
  | some t =>
    if t.sent + t.limit < s.time then .next (closeTxn s t false (.err cFabricTimeout))
    else .refused (.notEnabled "FABRIC_TIMEOUT")
  | none => .refused (.notEnabled "FABRIC_TIMEOUT")

/-- R178: OVD is set in the header of the waiting packet `k`. -/
def execOverdue (st : StId) (k : Nat) (s : State) : Out :=
  match s.dev.arb[st].wait[k]? with
  | some p =>
    if (p.now s.time).h.slack = 0 ∧ p.h.ovd = false then
      let a := s.dev.arb[st]
      let w := modList (fun (q : Packet) => { q with h := { q.h with ovd := true } }) a.wait k
      .next (s.modDev fun v => { v with arb := v.arb.set st { a with wait := w } })
    else .refused (.notEnabled "OVERDUE")
  | none => .refused (.notEnabled "OVERDUE")

/-- The wait of a held request is over. -/
def heldLate (s : State) (x : Held) : Bool := x.limit != 0 && decide (x.since + x.limit < s.time)

/-- A held request is answered with a NAK. -/
def nakHeld (s : State) (k : Nat) (x : Held) (c : Cause) : State :=
  sendReply (s.modDev fun v => { v with held := v.held.eraseIdx k }) x.h tNAK c []

/-- R169, step 6. -/
def execSrfAbsent (k : Nat) (s : State) : Out :=
  match s.dev.held[k]? with
  | some x =>
    if !x.srfWait && heldLate s x then .next (nakHeld s k x cSrfAbsent) else .refused (.notEnabled "SRF_ABSENT")
  | none => .refused (.notEnabled "SRF_ABSENT")

/-- Whether the wait of a reader on an empty line has lasted longer than its limit (R70). -/
def Pend.late (p : Pend) (t : Nat) : Bool :=
  match p with
  | .line since limit => decide (since + limit < t)
  | _ => false

/-- R70: the reader faults. -/
def execFeTimeout (r : FeReader) (s : State) : Out :=
  let no : Out := .refused (.notEnabled "FE_TIMEOUT")
  match r with
  | .scp sp => if (s.sp sp).pend.late s.time then .next (failStrand s sp cFFeTimeout) else no
  | .kernel sp =>
    match (s.sp sp).ke.run.bind KRun.since with
    | some (t0, limit) => if t0 + limit < s.time then .next (kernelFault s sp cKernelFeTimeout) else no
    | none => no
  | .copy sp ch =>
    match (s.sp sp).str.chans[ch].run with
    | some c =>
      if c.pend.late s.time && c.stop.isNone then
        .next (s.modSp sp fun p => p.modStr fun x => x.modChan ch fun q =>
          { q with run := some { c with stop := some cCopyFeTimeout, pend := .none } })
      else no
    | none => no
  | .remote k =>
    match s.dev.held[k]? with
    | some x => if x.srfWait && heldLate s x then .next (nakHeld s k x cFFeTimeout) else no
    | none => no

end Sys2Proof.Machine
end

