-- ==== Sys2Proof/Machine/Timers.lean ====
section
/-! DEFINITION. Periodic events and time-outs of the scheduler: the watchdog (R220), forced stops (R210), save time-outs
(R221), and ageing (R59, R231). -/

namespace Sys2Proof.Machine

open Sys2Proof

/-- The context has a resident or a ready task; which tasks count as ready is log 68's choice. -/
def hasWork (s : State) (ctx : CtxId) : Bool :=
  (s.gangs.any fun g => g.live && g.ctx = ctx && g.seats.any fun q => q.sp.isSome)
    || s.dies.toList.any fun d => d.ready.any fun t => (s.launch? t.launch).any fun l => decide (l.ctx = ctx)

def saving (s : State) (ctx : CtxId) : Bool := s.gangs.any fun g => g.live && g.ctx = ctx && g.saveAt.isSome

/-- The watchdog of a context runs (R220): it has a resident or ready task, and no save is in progress. -/
def watched (s : State) (ctx : CtxId) : Bool := hasWork s ctx && !saving s ctx

/-- `n` ns of device time pass (R250); while the watchdog of a context does not run, the time since its last progress event
stands. -/
def passTime (n : Nat) (s : State) : State :=
  if n = 0 then s
  else
    { s with
      time := s.time + n
      ctxs := Vector.ofFn fun i =>
        if watched s i then s.ctx i else { s.ctx i with progress := (s.ctx i).progress + n } }

/-- The launches whose jobs a hang stop halts: the live ones, and those that a Deal operation of theirs has outlived, which has not got
beyond Count (R194, R220). -/
def hangSeed (s : State) (ctx : CtxId) : List Nat :=
  (List.range s.launches.length).filter fun li =>
    (s.launch? li).any fun l => l.ctx = ctx && (l.phase = .accepted || l.phase = .running || dealWaits s li)

/-- R220. What a pre-emption had captured of the walkers stays readable until the context is destroyed (log 119). -/
def execWatchdogHang (ctx : CtxId) (s : State) : Out :=
  let c := s.ctx ctx
  if c.alive && watched s ctx && decide (c.progress + bits c.ctxwd.toNat 0 16 * 1000000 < s.time) then
    .next ((stopJobs s (hangSeed s ctx) cWatchdogHang).modCtx ctx fun x =>
      { x with progress := s.time, kept := x.kept ++ c.saved })
  else .refused (.notEnabled "WATCHDOG_HANG")

/-- R210: a gang that has not met the request within PRE is stopped at once, unless a seat is inside a NO_ROLLBACK region; its save
ends when the Dealers have ended what they had begun (R194). -/
def execForcedStop (gang : Nat) (s : State) : Out :=
  match s.gang? gang with
  | some g =>
    let c := s.ctx g.ctx
    match c.preempt with
    | some r =>
      if g.live && (g.seats.any fun q => q.sp.isSome) && !(g.seats.any (seatForced s)) && !gangNoRb s g
          && decide (r.since + bits c.ctxwd.toNat 16 16 * 1000 < s.time) then
        .next ((haltGang s gang).modCtx g.ctx fun x => { x with preempt := some { r with forced := true } })
      else .refused (.notEnabled "FORCED_STOP")
    | none => .refused (.notEnabled "FORCED_STOP")
  | none => .refused (.notEnabled "FORCED_STOP")

/-- R221, case 1: every seat is LOST_AT_SAVE and the owner is told. The task is over without an outcome. -/
def loseGang (s : State) (gi : Nat) : State :=
  match s.gang? gi with
  | none => s
  | some g =>
    let seq : W64 := ((s.launch? g.launch).map fun l => l.r.seq).getD 0
    let sp : SpId := ((g.seats.findSome? Seat.sp).getD 0)
    let s1 := (endSave (freeSeats s g.seats) gi).modGang gi fun x =>
      { x with live := false, seats := x.seats.map fun q =>
        { q with status := .lostAtSave, sp := none, seq := q.seq + 1, cause := cSaveTimeout } }
    let s2 := recordCause (emitTask (writeRecords s1 gi g.size) sp g.ctx cSaveTimeout seq) g.launch cSaveTimeout
    let graph := ((s.launch? g.launch).map fun l => l.r.kind == 1).getD false
    let s2 := servedBy (freeAreas s2 g.ctx g.seats) g.launch g.die
    checkFinal (if graph then
        poison (modTask s2 g.launch g.tindex.toNat fun t => { t with status := .failed, cause := cSaveTimeout }) g.launch
          g.tindex.toNat
      else s2) g.launch

/-- R221. -/
def execSaveTimeout (gang : Nat) (s : State) : Out :=
  match s.gang? gang with
  | some g =>
    match g.saveAt with
    | some t0 =>
      if g.live && (g.seats.any fun q => q.sp.isSome)
          && decide (t0 + bits (s.ctx g.ctx).ctxwd.toNat 32 16 * 1000 < s.time) then
        .next (if gangNoImage s g then loseGang s gang
          else if gangNoRb s g then failGang s gang 0 cSaveTimeoutNorb
          else rollbackGang s gang)
      else .refused (.notEnabled "SAVE_TIMEOUT")
    | none => .refused (.notEnabled "SAVE_TIMEOUT")
  | none => .refused (.notEnabled "SAVE_TIMEOUT")

/-- R59, R231: an interval of a die's DISPAGE passes. Launches age by the time itself; the queues in slots follow die 0. -/
def execAgeingInterval (die : DieId) (s : State) : Out :=
  let s1 := passTime (ageNs s die) s
  .next (if die = 0 then
      { s1 with slots := s.slots.map fun x =>
          if x.q.state = .free then x else { x with q := { x.q with eprio := agedPrio x.q s1.time (ageNs s 0) } } }
    else s1)

end Sys2Proof.Machine
end

