-- ==== Sys2Proof/Machine/Ras.lean ====
section
/-! DEFINITION. Reset and boot (R13, R18, R252, R254), ECC errors (R244, R245), retirement of SPs (R48, R246), links
(R159, R166, R247), the Equinox cores and queue tables (R238, R239), temperature (R255), the device registers (R13, R60, R71,
R110, R172), and illegal words (R223, R261). -/

namespace Sys2Proof.Machine

open Sys2Proof

/-! ## Reset -/

/-- R252: the checks of a firmware slot. -/
def slotOk (b : Boot) (f : FlashSlot) : Bool := f.ecdsaOk && f.lmsOk && f.keysOk && decide (b.rollback.toNat ≤ f.secVer.toNat)

/-- 512 KiB (R238). -/
def imemBytes : Nat := 0x8_0000

/-- What survives a reset: module flash and fuses. -/
def coldState (s : State) : State :=
  { State.reset with dev := { Dev.init with accId := s.dev.accId, absent := s.dev.absent, boot := { s.dev.boot with status := 1, slot := 0 } } }

/-- Writable pages of context 0 for the kick units, queue 0 and the event ring (log 24). -/
def bootPages (s : State) : Option State :=
  mapPages 0 bootKick 0x1000 (fun t _ => (allocZero t 0x1000).map fun y => (y.2, y.1 + 0x93)) (bootBytes / 0x1000) s

/-- Region 0 is the boot report's; region 1 opens the ring and the kick units (R254). -/
def bootRegions : List (Nat × Region) :=
  [(0, ⟨true, false, false, true, false, false, 1, 0, 0, 64, 0, 0⟩),
   (1, ⟨true, false, false, true, true, false, 1, 0, BitVec.ofNat 56 bootKick, BitVec.ofNat 56 bootBytes, 0, 0⟩)]

/-- A core's instruction memory holds the image from address 0 on, and the core begins there (log 7). -/
def loadCore (img : List Byte) (c : Core) : Core := { c with imem := memWrite [] 0 (img.take imemBytes), pc := 0 }

/-- The accepted image is copied to HBM4, and the active cores are loaded from it (R238, R252). -/
def bootImage (s : State) : Option State :=
  let img := s.dev.boot.running.image
  let place : Option (Nat × State) := if img.isEmpty then some (0, s) else allocZero s (alignUp img.length 0x1000)
  place.map fun x =>
    { (x.2.physWrite x.1 img).modDev (fun d => { d with boot := { d.boot with copyAt := x.1 } }) with
      cores := s.cores.map fun c => if c.status = .active then loadCore img c else c }

/-- R13, R224, R254: MEMSPLIT is written and locked before the first page table; then context 0 with its queue 0. -/
def bootDevice (s : State) : State :=
  let s1 := s.modDev fun d => { d with memsplit := (d.boot.bootK.setWidth 32) ||| 0x80, regions := bootRegions }
  match (bootImage s1).bind fun t => (makeCtx t 0 Ctx.init.slkDef (BitVec.ofNat 64 bootKick)).bind bootPages with
  | none => s1
  | some t =>
    (makeQueue t 0 0 (BitVec.ofNat 64 bootRing) bootLog2n 0).modDev fun d =>
      { d with ev := { d.ev with ring := BitVec.ofNat 64 bootEvents }, boot := { d.boot with status := 0 } }

/-- Reset and boot: slot A, then slot B, else only the boot report is served (R252). -/
def resetDevice (s : State) : State :=
  let t := coldState s
  let b := t.dev.boot
  if slotOk b b.slotA then bootDevice t
  else if slotOk b b.slotB then bootDevice (t.modDev fun d => { d with boot := { d.boot with slot := 1 } })
  else t.modDev fun d => { d with boot := { d.boot with status := 2 } }

/-- R252. -/
def execReset (s : State) : Out := .next (resetDevice s)

/-! ## Retirement (R48, R210, R246) -/

/-- The dies where the launch of gangs of `g` can stand. -/
def capable (s : State) (g : Nat) : List DieId := (List.finRange 4).filter fun d => capacity s g d != 0

/-- R48, step 1: the ranges of the launch on the die leave its walkers; they go to walkers of dies with capacity as soon as
one is FREE. -/
def moveRanges (s : State) (li : Nat) (l : Launch) (die dst : DieId) : State :=
  (List.finRange 16).foldl (fun t i =>
    match (t.die die).walkers[i] with
    | .active k n e =>
      if k = li then (setWalker t die i .free).modCtx l.ctx fun c => { c with saved := c.saved ++ [⟨li, n, e, i.val, dst⟩] }
      else t
    | .frozen k n e =>
      if k = li then (setWalker t die i .free).modCtx l.ctx fun c => { c with saved := c.saved ++ [⟨li, n, e, i.val, dst⟩] }
      else t
    | _ => t) s

/-- R48, step 2. -/
def moveReady (s : State) (li : Nat) (die : DieId) (dies : List DieId) : State :=
  let mine := ((s.die die).ready.filter fun t => t.launch = li).mergeSort fun a b => decide (a.idx ≤ b.idx)
  let s1 := s.modDie die fun d => { d with ready := d.ready.filter fun t => t.launch != li }
  mine.zipIdx.foldl (fun z t =>
    match dies[t.2 % dies.length]? with
    | some d => z.modDie d fun x => { x with ready := x.ready ++ [t.1] }
    | none => z) s1

/-- R48, step 3: the launch cannot be placed any more. Where one of its tasks had failed before, the event record carries that first
cause (R58; log 135). -/
def unplaceable (s : State) (li : Nat) : State :=
  let c := cLaunchGangUnplaceable
  let s1 := clearWalkers s li
  let s2 : State := { s1 with dies := s1.dies.map fun d => { d with ready := d.ready.filter fun t => t.launch != li } }
  let s3 := (List.range s2.gangs.length).foldl (fun t gi =>
    match t.gang? gi with
    | some g => if g.live && g.launch = li && g.seats.all (fun q => q.sp.isNone) then failGang t gi 0 c else t
    | none => t) s2
  match s3.launch? li with
  | some x => if x.phase = .failed ∨ x.phase = .done then s3 else endFailed s3 li c
  | none => s3

/-- R48 for one running launch after a retirement on `die`. -/
def afterRetire (die : DieId) (s : State) (li : Nat) : State :=
  match s.launch? li with
  | none => s
  | some l =>
    if l.phase ≠ .running ∨ capacity s l.r.gsize die ≠ 0 then s
    else
      match capable s l.r.gsize with
      | [] => unplaceable s li
      | d :: ds => moveReady (moveRanges s li l die d) li die (d :: ds)

/-- Whether the rollback reads lines of seat `n`, whose SP has failed, through that SP's readback port (R211). -/
def readsBack (s : State) (g : Gang) (n : Nat) : Bool :=
  match g.seats[n]? with
  | none => false
  | some q => seatParked s q || (q.image.isSome && !(seatTable s g q.ckoff).ranges.isEmpty)

/-- R210, R211: the gang whose seat `n` stood on the failed SP. -/
def failedSpGang (s : State) (gi n : Nat) : State :=
  match s.gang? gi with
  | none => s
  | some g =>
    let idem := ((s.launch? g.launch).map fun l => l.r.idem).getD false
    let bare := g.seats.any fun q => q.image.isNone && !seatParked s q
    if gangNoRb s g then (if idem then renewGang s gi else failGang s gi n cSpFailedNorb)
    else if idem && bare then renewGang s gi
    else if readsBack s g n && Config.freeBit s.tick 3 then
      (if idem then renewGang s gi else failGang s gi n cSrfUnrecoverable)
    else rollbackGang s gi

/-- R246: the SP is out of service, the die's spare takes its place if it is still free, be it retired itself or not (log 129). -/
def retireSp (s : State) (sp : SpId) : State :=
  let d := dieOf sp
  let s1 := s.modSp sp fun p => { p with retired := true }
  let s2 := if !s.dev.spareUsed[d] && !isSpare sp then
      s1.modDev fun v => { v with spareUsed := v.spareUsed.set d true, spareFor := v.spareFor.set d (some sp) }
    else s1
  let s3 := match (s2.sp sp).gang with
    | some g => failedSpGang s2 g (s2.sp sp).id.seat.toNat
    | none => s2
  let s4 := (List.range s3.launches.length).foldl (afterRetire d) s3
  emit s4 4 (BitVec.ofNat 16 d.val) cSpRetired 5 0 s4.dev.accId (BitVec.ofNat 64 sp.val)

/-- 24 hours in ns. -/
def dayNs : Nat := 86400000000000

/-- R246: more than 1,000 correctable errors within 24 hours. -/
def execSpRetired (sp : SpId) (s : State) : Out :=
  let p := s.sp sp
  if !p.retired && decide (1000 < (p.corr.filter fun t => decide (s.time < t + dayNs)).length) then .next (retireSp s sp)
  else .refused (.notEnabled "SP_RETIRED")

/-! ## ECC (R244, R245) -/

/-- Where a byte of HBM4 lies (R14): die, stack, channel, and the byte within that controller. -/
structure HbmPlace where
  die     : Nat
  stack   : Nat
  channel : Nat
  caddr   : Nat
  deriving DecidableEq, Repr

/-- R14: the interleaved region in 256-byte lines over dies, stacks and channels, a local region over the stacks and channels of
its die. -/
def hbmPlace (s : State) (pa : Nat) : HbmPlace :=
  let top := interTop s.dev.memsplit
  let k := bits s.dev.memsplit.toNat 0 7
  if pa < top then
    let n := pa / 256
    ⟨n % 4, n / 4 % 3, n / 12 % 32, n / 384 * 256 + pa % 256⟩
  else
    let d := (pa - top) / (max 1 (3 * k) * 2 ^ 30)
    let m := (pa - top - d * (3 * k * 2 ^ 30)) / 256
    ⟨d, m % 3, m / 3 % 32, 2 * 2 ^ 30 - k * 32 * 2 ^ 20 + m / 96 * 256 + pa % 256⟩

/-- The global number of a channel controller (R11). -/
def HbmPlace.controller (x : HbmPlace) : Nat := x.die * 96 + x.stack * 32 + x.channel
def controllerOf (s : State) (pa : Nat) : Nat := (hbmPlace s pa).controller

/-- The unit that holds a location, as an event source (R249). R249 names none for an L2 TLB, the queue tables and the kick
tables (log 128). -/
def errSource (s : State) : ErrLoc → BitVec 4 × BitVec 16
  | .hbm pa => (1, BitVec.ofNat 16 (controllerOf s pa))
  | .spData sp => (0, ssidScp sp)
  | .spControl sp => (0, ssidScp sp)
  | .eqxImem c => (0, ssidCore c)
  | .l2 die => (4, BitVec.ofNat 16 die.val)
  | .queueTable _ _ _ => (4, 0)
  | .kickTable _ _ => (4, 0)

/-- R244: counted, without any other visible effect. -/
def countError (s : State) (l : ErrLoc) : State :=
  let k := errSource s l
  let n := ((s.dev.ras.find? fun x => x.1 = k.1 ∧ x.2.1 = k.2).map fun x => x.2.2).getD 0
  s.modDev fun d => { d with ras := (k.1, k.2, n + 1) :: d.ras.filter fun x => !(x.1 = k.1 && x.2.1 = k.2) }

/-- The times of an SP's correctable errors within the last 24 hours. -/
def noteCorr (s : State) (sp : SpId) : State :=
  s.modSp sp fun p => { p with corr := s.time :: p.corr.filter fun t => decide (s.time < t + dayNs) }

/-- R244. -/
def execCorrectableError (l : ErrLoc) (s : State) : Out :=
  .next (match l with
    | .spData sp => noteCorr (countError s l) sp
    | .spControl sp => noteCorr (countError s l) sp
    | _ => countError s l)

/-! ## Equinox cores and queue tables (R238, R239) -/

/-- The signed image in HBM4, if it verifies as at boot (R238, R252). -/
def signedImage (s : State) : Option (List Byte) :=
  let b := s.dev.boot
  let img := s.physRead b.copyAt b.running.image.length
  if slotOk b b.running && img = b.running.image && !poisoned s.dev.poison b.copyAt img.length then some img else none

/-- The core that takes over: a spare of the same die, then the lowest spare, then the lowest active core. A spare whose image does
not verify is no spare (log 7). -/
def successor (s : State) (c : CoreId) : Option CoreId :=
  let is (x : CoreStatus) (i : CoreId) : Bool :=
    i != c && (s.eqx i).status = x && (x != .spare || (signedImage s).isSome)
  match (List.finRange 12).find? fun i => is .spare i && i.val / 3 = c.val / 3 with
  | some i => some i
  | none =>
    match (List.finRange 12).find? (is .spare) with
    | some i => some i
    | none => (List.finRange 12).find? (is .active)

/-- A work record is replayed (R238). A page-in is asked for again. A command that has begun goes on where it stands, which has
the effect of repeating it from its start. -/
def replay (s : State) (w : WorkRec) : State :=
  if w.code = pageCode then
    let again (a : PageAsk) : PageAsk :=
      if a.ctx = w.what.ctx ∧ a.va = w.what.a0 ∧ a.gone = false then { a with sent := some (s.time, fabLimit s) } else a
    (s.modDev fun d => { d with pageAsks := d.pageAsks.map again }).ethSend (.pageRequest w.what.ctx w.what.a0)
  else s

/-- R238: the core is fenced, and its successor takes over the records that are not marked done, in log order. A spare starts from
the signed image. -/
def fenceCore (s : State) (c : CoreId) : State :=
  let left := (s.eqx c).log.filter fun w => !w.done
  let s1 := emit (s.modEqx c fun x => { x with status := .fenced }) 0 (ssidCore c) cEqxImemEcc 5 0 s.dev.accId 0
  match successor s c with
  | none => s1
  | some i =>
    left.foldl replay (s1.modEqx i fun x =>
      { (if x.status = .spare then loadCore ((signedImage s).getD []) { x with status := .active } else x) with
        log := x.log ++ left })

def execEqxImemEcc (core : CoreId) (s : State) : Out :=
  if (s.eqx core).status = .fenced then .refused (.notEnabled "EQX_IMEM_ECC") else .next (fenceCore s core)

/-- An uncorrectable error in one copy of a queue's table entry (R239); with both bad the queue is ERRORED (log 130). -/
def markTable (s : State) (ctx : CtxId) (qid : BitVec 12) (copyB : Bool) : State :=
  let s1 := modQueue s ctx qid fun u => if copyB then { u with bBad := true } else { u with aBad := true }
  if (slotOf s ctx qid).isNone && (s1.ctx ctx).queues.any fun u => u.qid = qid && u.aBad && u.bBad then
    failQueue s1 ctx qid cQueueErrored
  else s1

/-- An uncorrectable error in one copy of a context's pending array and kick filter; with both copies bad, each of its queues is
ERRORED (R239). -/
def markKicks (s : State) (ctx : CtxId) (copyB : Bool) : State :=
  let s1 := s.modCtx ctx fun c =>
    if copyB then { c with tabB := { c.tabB with bad := true } } else { c with tabA := { c.tabA with bad := true } }
  if (s1.ctx ctx).tabA.bad && (s1.ctx ctx).tabB.bad then
    (s1.ctx ctx).queues.foldl (fun t u => failQueue t ctx u.qid cQueueErrored) s1
  else s1

/-- The copy named is bad and the other is not. -/
def oneBad (copyB aBad bBad : Bool) : Bool := if copyB then bBad && !aBad else aBad && !bBad

/-- R239: a read for a queue finds a bad copy, of its QCB or of its context's pending array and kick filter, and restores it from
the other. -/
def execQueueTableRestored (ctx : CtxId) (qid : BitVec 12) (copyB : Bool) (s : State) : Out :=
  match userQueue s ctx qid with
  | none => .refused (.notEnabled "QUEUE_TABLE_RESTORED")
  | some u =>
    let c := s.ctx ctx
    let q := oneBad copyB u.aBad u.bBad
    let k := oneBad copyB c.tabA.bad c.tabB.bad
    if q || k then
      let s1 := if q then modQueue s ctx qid fun x =>
          if copyB then { x with b := x.a, bBad := false } else { x with a := x.b, aBad := false }
        else s
      let s2 := if k then s1.modCtx ctx fun x => if copyB then { x with tabB := x.tabA } else { x with tabA := x.tabB } else s1
      .next (emitQueue s2 ctx cQueueTableRestored qid)
    else .refused (.notEnabled "QUEUE_TABLE_RESTORED")

/-- R245; an L2 TLB drops what it holds (log 114). -/
def execUncorrectableError (l : ErrLoc) (s : State) : Out :=
  .next (match l with
    | .hbm pa =>
      let w := pa / 64
      if pa < hbmTop ∧ s.dev.poison.contains w = false then s.modDev fun d => { d with poison := w :: d.poison } else s
    | .spData sp => if (s.sp sp).run = .idle then s else failStrand s sp cSramUncorrectable
    | .spControl sp => if (s.sp sp).retired then s else retireSp s sp
    | .eqxImem c => if (s.eqx c).status = .fenced then s else fenceCore s c
    | .l2 die => s.modDie die fun d => { d with l2 := [] }
    | .queueTable ctx qid b => markTable s ctx qid b
    | .kickTable ctx b => markKicks s ctx b)

/-- R244: all of HBM4 is scrubbed every 24 hours; what a scrub corrects is counted by CORRECTABLE_ERROR. -/
def execScrub (s : State) : Out :=
  if (s.dev.scrubs + 1) * dayNs ≤ s.time then .next (s.modDev fun d => { d with scrubs := d.scrubs + 1 })
  else .refused (.notEnabled "SCRUB")

/-! ## Links (R159, R166, R247) -/

/-- R166: a station goes down: what waits at it is lost, and its open transactions end. -/
def stationDown (s : State) (st : StId) : State :=
  let mine := s.dev.txns.filter fun t => t.st = st && t.h.dst != s.dev.accId
  let s1 := s.modDev fun v => { v with arb := v.arb.set st { v.arb[st] with wait := [] } }
  mine.foldl (fun z t => closeTxn z t false (.err cFabricLinkDown)) s1

/-- R159: a station goes from four lanes to two, to one, or down. -/
def execLinkDegraded (st : StId) (lanes : BitVec 3) (s : State) : Out :=
  if lanes.toNat < s.dev.lanes[st].toNat && (lanes = 2 || lanes = 1 || lanes = 0) then
    let s1 := s.modDev fun v => { v with lanes := v.lanes.set st lanes }
    let s2 := if lanes = 0 then stationDown s1 st else s1
    .next (emit s2 2 (BitVec.ofNat 16 st.val) cLinkDegraded 5 0 s2.dev.accId (lanes.setWidth 64))
  else .refused (.notEnabled "LINK_DEGRADED")

/-! ## Temperature (R255) -/

/-- The junction temperature of a die is measured (R255); what crosses a limit is an event of its own. -/
def measure (s : State) (die : DieId) (temp : Nat) : State :=
  let hot := (s.die die).hot
  if 1150 < temp ∨ (hot = false ∧ 1050 < temp) ∨ (hot = true ∧ temp < 950) then s
  else s.modDie die fun d => { d with temp := temp }

/-- R255: above 105.0 °C. -/
def execThermalEvent (die : DieId) (temp : Nat) (s : State) : Out :=
  if 1050 < temp ∧ (s.die die).hot = false then
    .next (emit (s.modDie die fun d => { d with hot := true, temp := temp }) 4 (BitVec.ofNat 16 die.val) 0 6 0 s.dev.accId
      (BitVec.ofNat 64 temp))
  else .refused (.notEnabled "THERMAL_EVENT")

/-- R255: below 95.0 °C. -/
def execThermalRecovery (die : DieId) (temp : Nat) (s : State) : Out :=
  if temp < 950 ∧ (s.die die).hot = true then .next (s.modDie die fun d => { d with hot := false, temp := temp })
  else .refused (.notEnabled "THERMAL_RECOVERY")

/-- R255: above 115.0 °C the module stops all work. -/
def execThermalShutdown (die : DieId) (temp : Nat) (s : State) : Out :=
  if 1150 < temp then .next ((s.modDie die fun d => { d with temp := temp }).modDev fun d => { d with powered := false })
  else .refused (.notEnabled "THERMAL_SHUTDOWN")

/-! ## Device registers -/

/-- No firmware slot has been accepted: no core runs, and only the boot report is served (R252). -/
def noFirmware (s : State) : Bool := s.dev.boot.status = 2

/-- R13. -/
def execMemsplitWrite (v : W32) (s : State) : Out :=
  if noFirmware s then .refused (.notEnabled "MEMSPLIT_WRITE") else .next (setMemsplit s v)

/-- R60, R71, R110, R172. -/
def execDeviceRegisterWrite (r : DevReg) (v : W32) (s : State) : Out :=
  if noFirmware s then .refused (.notEnabled "DEVICE_REGISTER_WRITE") else .next (setDevReg s r v)

/-! ## Illegal words -/

/-- R261: a word that no instruction encodes. -/
def execIllegalInstruction (w : W64) (s : State) : Out :=
  match decodeScp w with
  | .error _ => .next s.illegal
  | .ok _ => .refused (.notEnabled "ILLEGAL_INSTRUCTION")

/-- R223: neither a custom instruction nor one of the base set. -/
def eqxIllegal (w : W32) : Bool :=
  (match decodeEqx w with
    | .ok _ => false
    | .error _ => true) && (rvDecode w).isNone

/-- R223: the core takes the illegal-instruction exception, and the firmware reports it (log 25). -/
def execEqxIllegalInstruction (w : W32) (s : State) : Out :=
  if eqxIllegal w then
    .next (emit (s.eqxTrap mcIllegal ((rvWord w).setWidth 64)) 0 (ssidCore s.core) cEqxIllegalInstruction 5 0 s.dev.accId 0)
  else .refused (.notEnabled "EQX_ILLEGAL_INSTRUCTION")

end Sys2Proof.Machine
end

