-- ==== Sys2Proof/Machine/ScpStream.lean ====
section
/-! DEFINITION. The SCP's stream instructions: scopy, sfence, swait, kload and krun at issue (R304, R307, R356 to R362,
R382). What the ops do once started stands in Streams.lean. -/

namespace Sys2Proof.Machine

open Sys2Proof


/-- R85, step 1: the SCP stalls while the op's tag is pending. -/
def State.tagGate (s : State) (t : TagId) (k : State → State) : State := if s.me.str.busy t then s.waits else k s

/-- The op as it is recorded now. -/
def opNow (s : State) (m : StrMod) (tag : TagId) (wait : W64) (b : StreamBody) : StreamOp :=
  ⟨s.me.str.num, some tag, ownClear wait tag, m.urg, s.slack m.urg, b⟩

/-- Records an op (R85, steps 2 and 3): its tag becomes pending, `put` places it in its queue. -/
def State.record (s : State) (tag : TagId) (put : Streams → Streams) : State :=
  (s.modMe fun p => p.modStr fun x => put (x.take tag)).retire

/-! ## scopy (R356 to R359) -/

/-- The copy is recorded and enters its channel's queue (R357). -/
def scopyRecord (m : StrMod) (tag : TagId) (ti : BitVec 16) (wait param tb : W64) (s : State) : State :=
  let o := opNow s m tag wait (.copy ti (param.setWidth 32) tb (chOf m.chan) (m.tag.setWidth 16))
  s.record tag fun x => x.modChan (chOf m.chan) fun c => { c with queue := c.queue ++ [o] }

/-- R357. -/
def scopyAct (m : StrMod) (tag : TagId) (ti : BitVec 16) (a b : SReg) (s : State) : State :=
  let tb := s.me.r.ttbase
  let wait := s.sreg a
  let param := s.sreg b
  s.tagGate tag fun s => s.fenceGate fun s =>
    if templateIn tb ti then
      s.memGate (some (templateAddr tb ti, 64)) fun s =>
        (scpRead s m.urg (templateAddr tb ti) 64).andThen fun d t =>
          scopyRecord m tag ti wait param tb (emptyDest t t.cur (parseTemplate d))
    else scopyRecord m tag ti wait param tb s

/-- R356 to R359. -/
def execScopy (m : StrMod) (ti : BitVec 16) (a b : SReg) (s : State) : Out :=
  .next (scopyAct m (tagOf m.tag) ti a b s)

/-! ## sfence (R360, R362) -/

/-- R362. The failures are looked at once, before the wait for the tag. -/
def sfenceAct (m : StrMod) (tag : TagId) (mask : BitVec 16) (a : SReg) (s : State) : State :=
  match (if s.me.pend = .fence then none else undelivered s.me.str mask) with
  | some u => s.deliverCopy u
  | none =>
    let wait := s.sreg a
    if s.me.str.busy tag then s.modMe fun p => { p with pend := .fence }
    else s.record tag fun x => { x with fences := x.fences ++ [opNow s m tag wait (.sfence (copiesIn x mask))] }

/-- R360, R362. -/
def execSfence (m : StrMod) (mask : BitVec 16) (a : SReg) (s : State) : Out :=
  .next (if WellFormed (.sfence m mask a) then sfenceAct m (tagOf m.tag) mask a s else s.illegal)

/-! ## swait (R86, R382) -/

/-- R382, on tags. -/
def execSwait (_m : StrMod) (a _b : SReg) (s : State) : Out :=
  let mask : W32 := (s.sreg a).setWidth 32
  .next (if !s.me.str.clear mask then s.waits
    else
      match tagCause s.me.str mask with
      | some u => s.deliverCopy u
      | none => (coverTags s s.cur mask).retire)

/-- WP of a channel is at or above a value (R382). -/
def wpReached (c : Channel) (v : W64) : Bool := decide ((c.wp - v.setWidth 48).toNat < 2 ^ 47)

/-- R382, on a write pointer. -/
def execSwaitWp (m : StrMod) (_a b : SReg) (s : State) : Out :=
  let c := s.me.str.chans[chOf m.chan]
  .next (if !wpReached c (s.sreg b) then s.waits
    else
      match c.und.head? with
      | some u => s.deliverCopy u
      | none => s.retire)

/-! ## kload (R304) -/

def kloadAct (m : StrMod) (tag : TagId) (kbase : BitVec 12) (wait src count : W64) (s : State) : State :=
  if src.toNat % 64 ≠ 0 then s.fatal cGMisaligned
  else if count = 0 ∨ count.toNat > 4096 ∨ kbase.toNat + count.toNat > 4096 then s.fatal cKloadIllegalEncoding
  else
    s.tagGate tag fun s => s.fenceGate fun s =>
      s.record tag fun x => { x with kimq := x.kimq ++ [opNow s m tag wait (.kload kbase src count)] }

/-- R304. -/
def execKload (m : StrMod) (kbase : BitVec 12) (a b c : SReg) (s : State) : Out :=
  .next (if WellFormed (.kload m kbase a b c) then
      kloadAct m (tagOf m.tag) kbase (s.sreg a) (s.sreg b) (s.sreg c) s
    else s.illegal)

/-! ## krun (R306, R307) -/

/-- The krun block in 128 bytes, and whether its reserved bits are 0 (R306). -/
def parseKBlock (b : List Byte) : KBlock × Bool :=
  ({ args := Vector.ofFn fun i => BitVec.ofNat 32 (field b (4 * i.val) 4)
     bind := Vector.ofFn fun i =>
       let w := field b (32 + 8 * i.val) 8
       ⟨BitVec.ofNat 23 w, bit w 23, BitVec.ofNat 8 (w / 2 ^ 32)⟩
     extent := BitVec.ofNat 13 (field b 96 8) },
   ((List.range 8).all fun i =>
      let w := field b (32 + 8 * i) 8
      bits w 24 8 = 0 && bits w 40 24 = 0)
    && bits (field b 96 8) 13 51 = 0 && (List.range 3).all fun i => field b (104 + 8 * i) 8 = 0)

/-- R307: the block's checks. -/
def kblockOk (alloc : Nat) (entry : BitVec 12) (x : KBlock × Bool) : Bool :=
  x.2 && x.1.extent != 0 && decide (entry.toNat + x.1.extent.toNat ≤ 4096)
    && x.1.bind.toList.all fun q =>
      !q.valid || (q.base.toNat % 0x8000 = 0 && decide (q.base.toNat + (q.lm1.toNat + 1) * 0x8000 ≤ alloc))

/-- The op is recorded (R85); the strand's stores to the SRF come before the kernel's reads (R88). -/
def krunRecord (m : StrMod) (tag : TagId) (entry : BitVec 12) (chk : Bool) (wait : W64) (b : KBlock) (s : State) : State :=
  (drainIf (fun w => w.f.isSome) s s.cur).record tag fun y => { y with kq := y.kq ++ [opNow s m tag wait (.krun entry chk b)] }

/-- The block has been read: it is checked, and while the op's tag is pending the SCP stalls with it (R85, R307). -/
def krunBlock (m : StrMod) (tag : TagId) (entry : BitVec 12) (chk : Bool) (wait : W64) (b : List Byte) (s : State) :
    State :=
  let x := parseKBlock b
  if !kblockOk s.me.alloc entry x then s.fatal cKrunBindingBad
  else if s.me.str.busy tag then s.modMe fun p => { p with pend := .krun x.1 }
  else krunRecord m tag entry chk wait x.1 s

def krunAct (m : StrMod) (tag : TagId) (entry : BitVec 12) (chk : Bool) (wait blk : W64) (s : State) : State :=
  match s.me.pend with
  | .krun b => s.tagGate tag (krunRecord m tag entry chk wait b)
  | _ =>
    if blk.toNat % 64 ≠ 0 then s.fatal cGMisaligned
    else s.memGate (some (blk.toNat, 128)) fun s =>
      (scpReadStrict s m.urg blk.toNat 128).andThen (krunBlock m tag entry chk wait)

/-- R307. -/
def execKrun (m : StrMod) (entry : BitVec 12) (chk : Bool) (a b : SReg) (s : State) : Out :=
  .next (if WellFormed (.krun m entry chk a b) then krunAct m (tagOf m.tag) entry chk (s.sreg a) (s.sreg b) s
    else s.illegal)

end Sys2Proof.Machine
end

