-- ==== Sys2Proof/Machine/Dispatch.lean ====
section
/-! DEFINITION. One arm for each constructor of `Instr`: the dispatch of a step of the opcode table to its meaning. -/

namespace Sys2Proof.Machine

open Sys2Proof

def exec (i : Instr) (s : State) : Host.Outcome State Fault Refusal :=
  match i with
  | .nop => Sys2Proof.Machine.execNop s
  | .trap code => Sys2Proof.Machine.execTrap code s
  | .svc code => Sys2Proof.Machine.execSvc code s
  | .tfence => Sys2Proof.Machine.execTfence s
  | .fence order scope => Sys2Proof.Machine.execFence order scope s
  | .ckpt off => Sys2Proof.Machine.execCkpt off s
  | .susp => Sys2Proof.Machine.execSusp s
  | .tend => Sys2Proof.Machine.execTend s
  | .sget d num => Sys2Proof.Machine.execSget d num s
  | .sset a num => Sys2Proof.Machine.execSset a num s
  | .wset k a b => Sys2Proof.Machine.execWset k a b s
  | .gbar => Sys2Proof.Machine.execGbar s
  | .add d a b => Sys2Proof.Machine.execAdd d a b s
  | .sub d a b => Sys2Proof.Machine.execSub d a b s
  | .mul d a b => Sys2Proof.Machine.execMul d a b s
  | .mulh sgn d a b => Sys2Proof.Machine.execMulh sgn d a b s
  | .div sgn d a b => Sys2Proof.Machine.execDiv sgn d a b s
  | .rem sgn d a b => Sys2Proof.Machine.execRem sgn d a b s
  | .and d a b => Sys2Proof.Machine.execAnd d a b s
  | .or d a b => Sys2Proof.Machine.execOr d a b s
  | .xor d a b => Sys2Proof.Machine.execXor d a b s
  | .shl d a b => Sys2Proof.Machine.execShl d a b s
  | .shr d a b => Sys2Proof.Machine.execShr d a b s
  | .sra d a b => Sys2Proof.Machine.execSra d a b s
  | .min sgn d a b => Sys2Proof.Machine.execMin sgn d a b s
  | .max sgn d a b => Sys2Proof.Machine.execMax sgn d a b s
  | .cmp cond d a b => Sys2Proof.Machine.execCmp cond d a b s
  | .csel d a b c => Sys2Proof.Machine.execCsel d a b c s
  | .addi d a imm => Sys2Proof.Machine.execAddi d a imm s
  | .li d imm => Sys2Proof.Machine.execLi d imm s
  | .bfx d a lsb wm1 => Sys2Proof.Machine.execBfx d a lsb wm1 s
  | .bfi d a lsb wm1 => Sys2Proof.Machine.execBfi d a lsb wm1 s
  | .b cond a b imm => Sys2Proof.Machine.execB cond a b imm s
  | .j imm => Sys2Proof.Machine.execJ imm s
  | .jal d imm => Sys2Proof.Machine.execJal d imm s
  | .jr a => Sys2Proof.Machine.execJr a s
  | .ldg m d a imm => Sys2Proof.Machine.execLdg m d a imm s
  | .ldf m d a imm => Sys2Proof.Machine.execLdf m d a imm s
  | .stg m a b imm => Sys2Proof.Machine.execStg m a b imm s
  | .stf m a b imm => Sys2Proof.Machine.execStf m a b imm s
  | .amog m code d a b c => Sys2Proof.Machine.execAmog m code d a b c s
  | .amof m code d a b c => Sys2Proof.Machine.execAmof m code d a b c s
  | .scopy m ti a b => Sys2Proof.Machine.execScopy m ti a b s
  | .sfence m mask a => Sys2Proof.Machine.execSfence m mask a s
  | .swait m a b => Sys2Proof.Machine.execSwait m a b s
  | .swaitWp m a b => Sys2Proof.Machine.execSwaitWp m a b s
  | .kload m kbase a b c => Sys2Proof.Machine.execKload m kbase a b c s
  | .krun m entry chk a b => Sys2Proof.Machine.execKrun m entry chk a b s
  | .launch d a => Sys2Proof.Machine.execLaunch d a s
  | .trig => Sys2Proof.Machine.execTrig s
  | .twait d => Sys2Proof.Machine.execTwait d s
  | .twaitId d a => Sys2Proof.Machine.execTwaitId d a s
  | .deal d a => Sys2Proof.Machine.execDeal d a s
  | .undeal d a => Sys2Proof.Machine.execUndeal d a s
  | .aadd g ad a1 a2 lsel => Sys2Proof.Machine.execAadd g ad a1 a2 lsel s
  | .aaddi g ad a1 imm => Sys2Proof.Machine.execAaddi g ad a1 imm s
  | .asub g ad a1 a2 lsel => Sys2Proof.Machine.execAsub g ad a1 a2 lsel s
  | .amul g ad a1 a2 lsel => Sys2Proof.Machine.execAmul g ad a1 a2 lsel s
  | .ali g ad => Sys2Proof.Machine.execAli g ad s
  | .acmp g cond pd a1 a2 lsel => Sys2Proof.Machine.execAcmp g cond pd a1 a2 lsel s
  | .asel g ad ps a1 a2 lsel => Sys2Proof.Machine.execAsel g ad ps a1 a2 lsel s
  | .ald g ad vn a2 lsel imm => Sys2Proof.Machine.execAld g ad vn a2 lsel imm s
  | .atsr g pd tsr bit => Sys2Proof.Machine.execAtsr g pd tsr bit s
  | .lcset g a2 lsel st => Sys2Proof.Machine.execLcset g a2 lsel st s
  | .pmov g pd ps neg => Sys2Proof.Machine.execPmov g pd ps neg s
  | .vadd g fmt rnd vd s1 s2 m => Sys2Proof.Machine.execVadd g fmt rnd vd s1 s2 m s
  | .vsub g fmt rnd vd s1 s2 m => Sys2Proof.Machine.execVsub g fmt rnd vd s1 s2 m s
  | .vmul g fmt rnd vd s1 s2 m => Sys2Proof.Machine.execVmul g fmt rnd vd s1 s2 m s
  | .vfma g fmt rnd vd s1 s2 s3 m => Sys2Proof.Machine.execVfma g fmt rnd vd s1 s2 s3 m s
  | .vmin g fmt rnd vd s1 s2 m => Sys2Proof.Machine.execVmin g fmt rnd vd s1 s2 m s
  | .vmax g fmt rnd vd s1 s2 m => Sys2Proof.Machine.execVmax g fmt rnd vd s1 s2 m s
  | .vexp2 g fmt rnd vd s1 m => Sys2Proof.Machine.execVexp2 g fmt rnd vd s1 m s
  | .vlog2 g fmt rnd vd s1 m => Sys2Proof.Machine.execVlog2 g fmt rnd vd s1 m s
  | .vrcp g fmt rnd vd s1 m => Sys2Proof.Machine.execVrcp g fmt rnd vd s1 m s
  | .vrsq g fmt rnd vd s1 m => Sys2Proof.Machine.execVrsq g fmt rnd vd s1 m s
  | .vcvt g fmt cvt rnd vd s1 m => Sys2Proof.Machine.execVcvt g fmt cvt rnd vd s1 m s
  | .viadd g fmt sat vd s1 s2 m => Sys2Proof.Machine.execViadd g fmt sat vd s1 s2 m s
  | .visub g fmt sat vd s1 s2 m => Sys2Proof.Machine.execVisub g fmt sat vd s1 s2 m s
  | .vimul g fmt sat vd s1 s2 m => Sys2Proof.Machine.execVimul g fmt sat vd s1 s2 m s
  | .vshl g fmt sat vd s1 s2 m => Sys2Proof.Machine.execVshl g fmt sat vd s1 s2 m s
  | .vshr g fmt vd s1 s2 m => Sys2Proof.Machine.execVshr g fmt vd s1 s2 m s
  | .vand g fmt vd s1 s2 m => Sys2Proof.Machine.execVand g fmt vd s1 s2 m s
  | .vor g fmt vd s1 s2 m => Sys2Proof.Machine.execVor g fmt vd s1 s2 m s
  | .vxor g fmt vd s1 s2 m => Sys2Proof.Machine.execVxor g fmt vd s1 s2 m s
  | .vmov g fmt vd s1 m => Sys2Proof.Machine.execVmov g fmt vd s1 m s
  | .vsel g fmt vd s1 s3 msk => Sys2Proof.Machine.execVsel g fmt vd s1 s3 msk s
  | .vcmp g cond fmt md s1 s2 m => Sys2Proof.Machine.execVcmp g cond fmt md s1 s2 m s
  | .vrotr g fmt vd s1 n m => Sys2Proof.Machine.execVrotr g fmt vd s1 n m s
  | .vrotc g fmt vd s1 n m => Sys2Proof.Machine.execVrotc g fmt vd s1 n m s
  | .vbcr g fmt vd s1 n m => Sys2Proof.Machine.execVbcr g fmt vd s1 n m s
  | .vbcc g fmt vd s1 n m => Sys2Proof.Machine.execVbcc g fmt vd s1 n m s
  | .vredr g op fmt vd s1 m => Sys2Proof.Machine.execVredr g op fmt vd s1 m s
  | .vredc g op fmt vd s1 m => Sys2Proof.Machine.execVredc g op fmt vd s1 m s
  | .vscanr g op fmt vd s1 m => Sys2Proof.Machine.execVscanr g op fmt vd s1 m s
  | .viota g mode fmt vd m => Sys2Proof.Machine.execViota g mode fmt vd m s
  | .vtopk g fmt vd s1 s2 s3 km1 merge => Sys2Proof.Machine.execVtopk g fmt vd s1 s2 s3 km1 merge s
  | .vtrn g fmt vd s1 inv => Sys2Proof.Machine.execVtrn g fmt vd s1 inv s
  | .vmask g op fmt md s1 s2 => Sys2Proof.Machine.execVmask g op fmt md s1 s2 s
  | .mma g fa fb acc oa ob za zb => Sys2Proof.Machine.execMma g fa fb acc oa ob za zb s
  | .mzero g acc => Sys2Proof.Machine.execMzero g acc s
  | .mdrain g fmt acc v => Sys2Proof.Machine.execMdrain g fmt acc v s
  | .mfill g oa v tr => Sys2Proof.Machine.execMfill g oa v tr s
  | .oclaim g oa => Sys2Proof.Machine.execOclaim g oa s
  | .orel g oa => Sys2Proof.Machine.execOrel g oa s
  | .lend g bank => Sys2Proof.Machine.execLend g bank s
  | .recallBank g bank => Sys2Proof.Machine.execRecall g bank s
  | .unpk g fmt wide vd s1 z scl part => Sys2Proof.Machine.execUnpk g fmt wide vd s1 z scl part s
  | .unpki g fmt wide vd s1 part => Sys2Proof.Machine.execUnpki g fmt wide vd s1 part s
  | .pack g fmt wide vd s1 z scl part => Sys2Proof.Machine.execPack g fmt wide vd s1 z scl part s
  | .packi g fmt wide vd s1 part => Sys2Proof.Machine.execPacki g fmt wide vd s1 part s
  | .pscale g fmt wide s1 z part => Sys2Proof.Machine.execPscale g fmt wide s1 z part s
  | .scld g zd vs row => Sys2Proof.Machine.execScld g zd vs row s
  | .scset g zd => Sys2Proof.Machine.execScset g zd s
  | .srd g vd q => Sys2Proof.Machine.execSrd g vd q s
  | .srdx g vd ar lsel => Sys2Proof.Machine.execSrdx g vd ar lsel s
  | .swr g s1 q => Sys2Proof.Machine.execSwr g s1 q s
  | .swrx g s1 ar lsel => Sys2Proof.Machine.execSwrx g s1 ar lsel s
  | .swra g s1 ar lsel => Sys2Proof.Machine.execSwra g s1 ar lsel s
  | .sfill g s1 q => Sys2Proof.Machine.execSfill g s1 q s
  | .xperm g vd s1 pat => Sys2Proof.Machine.execXperm g vd s1 pat s
  | .xbcast g vd s1 c => Sys2Proof.Machine.execXbcast g vd s1 c s
  | .xred g op fmt vd s1 => Sys2Proof.Machine.execXred g op fmt vd s1 s
  | .xshift g vd s1 sh circ => Sys2Proof.Machine.execXshift g vd s1 sh circ s
  | .xget g ad s1 c => Sys2Proof.Machine.execXget g ad s1 c s
  | .xput g vd as bcast => Sys2Proof.Machine.execXput g vd as bcast s
  | .jmp target stall => Sys2Proof.Machine.execJmp target stall s
  | .brp target pred stall => Sys2Proof.Machine.execBrp target pred stall s
  | .call target stall => Sys2Proof.Machine.execCall target stall s
  | .ret stall => Sys2Proof.Machine.execRet stall s
  | .kend stall => Sys2Proof.Machine.execKend stall s
  | .loop target stall => Sys2Proof.Machine.execLoop target stall s
  | .loopPoll target stall => Sys2Proof.Machine.execLoopPoll target stall s
  | .rep l n ia ib iacc stall => Sys2Proof.Machine.execRep l n ia ib iacc stall s
  | .qfetch r => Sys2Proof.Machine.execQfetch r s
  | .bfext r => Sys2Proof.Machine.execBfext r s
  | .sigwait r => Sys2Proof.Machine.execSigwait r s
  | .dispatch rd rs1 => Sys2Proof.Machine.execDispatch rd rs1 s
  | .qsave r => Sys2Proof.Machine.execQsave r s
  | .qload r => Sys2Proof.Machine.execQload r s
  | .launchPacket ctx qid lrec rslt => Sys2Proof.Machine.execLaunchPacket ctx qid lrec rslt s
  | .ctxCreate c => Sys2Proof.Machine.execCtxCreate c s
  | .ctxDestroy c => Sys2Proof.Machine.execCtxDestroy c s
  | .memMap c => Sys2Proof.Machine.execMemMap c s
  | .memUnmap c => Sys2Proof.Machine.execMemUnmap c s
  | .queueCreate c => Sys2Proof.Machine.execQueueCreate c s
  | .queueDestroy c => Sys2Proof.Machine.execQueueDestroy c s
  | .zcoLoad c => Sys2Proof.Machine.execZcoLoad c s
  | .zcoUnload c => Sys2Proof.Machine.execZcoUnload c s
  | .regionRegister c => Sys2Proof.Machine.execRegionRegister c s
  | .regionRevoke c => Sys2Proof.Machine.execRegionRevoke c s
  | .qpCreate c => Sys2Proof.Machine.execQpCreate c s
  | .stateRead c => Sys2Proof.Machine.execStateRead c s
  | .preempt c => Sys2Proof.Machine.execPreempt c s
  | .jobStop c => Sys2Proof.Machine.execJobStop c s
  | .ctxSetreg c => Sys2Proof.Machine.execCtxSetreg c s
  | .migrate c => Sys2Proof.Machine.execMigrate c s
  | .devSetreg c => Sys2Proof.Machine.execDevSetreg c s
  | .rmtSet c => Sys2Proof.Machine.execRmtSet c s
  | .memsplitWrite v => Sys2Proof.Machine.execMemsplitWrite v s
  | .deviceRegisterWrite r v => Sys2Proof.Machine.execDeviceRegisterWrite r v s
  | .rdmaWrite q data => Sys2Proof.Machine.execRdmaWrite q data s
  | .rdmaRead q len => Sys2Proof.Machine.execRdmaRead q len s
  | .send qp data => Sys2Proof.Machine.execSend qp data s
  | .cas q cmp new => Sys2Proof.Machine.execCas q cmp new s
  | .fetchAdd q addend => Sys2Proof.Machine.execFetchAdd q addend s
  | .connectionManagementMad peer mtu => Sys2Proof.Machine.execConnectionManagementMad peer mtu s
  | .read h => Sys2Proof.Machine.execRead h s
  | .pwr h data => Sys2Proof.Machine.execPwr h data s
  | .npwr h data => Sys2Proof.Machine.execNpwr h data s
  | .fewr h data => Sys2Proof.Machine.execFewr h data s
  | .atom h data => Sys2Proof.Machine.execAtom h data s
  | .rdata h data => Sys2Proof.Machine.execRdata h data s
  | .adata h data => Sys2Proof.Machine.execAdata h data s
  | .ack h => Sys2Proof.Machine.execAck h s
  | .nak h => Sys2Proof.Machine.execNak h s
  | .fabricTimeout ssid tag => Sys2Proof.Machine.execFabricTimeout ssid tag s
  | .overdue st k => Sys2Proof.Machine.execOverdue st k s
  | .feTimeout r => Sys2Proof.Machine.execFeTimeout r s
  | .watchdogHang ctx => Sys2Proof.Machine.execWatchdogHang ctx s
  | .forcedStop gang => Sys2Proof.Machine.execForcedStop gang s
  | .saveTimeout gang => Sys2Proof.Machine.execSaveTimeout gang s
  | .ageingInterval die => Sys2Proof.Machine.execAgeingInterval die s
  | .governorFreeze sp => Sys2Proof.Machine.execGovernorFreeze sp s
  | .dispatchDecision die place => Sys2Proof.Machine.execDispatchDecision die place s
  | .gangRelease gang => Sys2Proof.Machine.execGangRelease gang s
  | .split donorDie donor thiefDie thief => Sys2Proof.Machine.execSplit donorDie donor thiefDie thief s
  | .splitGrant die walker => Sys2Proof.Machine.execSplitGrant die walker s
  | .poolDispatch die => Sys2Proof.Machine.execPoolDispatch die s
  | .walkerRestore ctx => Sys2Proof.Machine.execWalkerRestore ctx s
  | .gangWriteBack gang => Sys2Proof.Machine.execGangWriteBack gang s
  | .gangResume gang die place => Sys2Proof.Machine.execGangResume gang die place s
  | .repairComplete gang => Sys2Proof.Machine.execRepairComplete gang s
  | .hostPageIn ctx va data => Sys2Proof.Machine.execHostPageIn ctx va data s
  | .storeFaultReplay sp => Sys2Proof.Machine.execStoreFaultReplay sp s
  | .shootdownAck u => Sys2Proof.Machine.execShootdownAck u s
  | .copyStart sp ch => Sys2Proof.Machine.execCopyStart sp ch s
  | .copyEnd sp ch => Sys2Proof.Machine.execCopyEnd sp ch s
  | .sfenceComplete sp tag => Sys2Proof.Machine.execSfenceComplete sp tag s
  | .kloadStart sp => Sys2Proof.Machine.execKloadStart sp s
  | .kloadComplete sp => Sys2Proof.Machine.execKloadComplete sp s
  | .kernelStart sp => Sys2Proof.Machine.execKernelStart sp s
  | .kernelEnd sp => Sys2Proof.Machine.execKernelEnd sp s
  | .repReissue sp => Sys2Proof.Machine.execRepReissue sp s
  | .completionWrite launch => Sys2Proof.Machine.execCompletionWrite launch s
  | .dealCount die => Sys2Proof.Machine.execDealCount die s
  | .dealScatter die => Sys2Proof.Machine.execDealScatter die s
  | .dealPublish die => Sys2Proof.Machine.execDealPublish die s
  | .undealCombine die => Sys2Proof.Machine.execUndealCombine die s
  | .reset => Sys2Proof.Machine.execReset s
  | .correctableError l => Sys2Proof.Machine.execCorrectableError l s
  | .uncorrectableError l => Sys2Proof.Machine.execUncorrectableError l s
  | .scrub => Sys2Proof.Machine.execScrub s
  | .spRetired sp => Sys2Proof.Machine.execSpRetired sp s
  | .linkDegraded st lanes => Sys2Proof.Machine.execLinkDegraded st lanes s
  | .eqxImemEcc core => Sys2Proof.Machine.execEqxImemEcc core s
  | .queueTableRestored ctx qid copyB => Sys2Proof.Machine.execQueueTableRestored ctx qid copyB s
  | .thermalEvent die temp => Sys2Proof.Machine.execThermalEvent die temp s
  | .thermalRecovery die temp => Sys2Proof.Machine.execThermalRecovery die temp s
  | .thermalShutdown die temp => Sys2Proof.Machine.execThermalShutdown die temp s
  | .srfAbsent k => Sys2Proof.Machine.execSrfAbsent k s
  | .illegalInstruction w => Sys2Proof.Machine.execIllegalInstruction w s
  | .eqxIllegalInstruction w => Sys2Proof.Machine.execEqxIllegalInstruction w s

end Sys2Proof.Machine
end

