-- ==== Sys2Proof/Machine/Run.lean ====
section
/-! DEFINITION. What each unit does in a turn: fetching and running an SCP instruction (R203, R261), a step of the kernel
engine, a custom instruction of an Equinox core (R222, R223), and the turns of the queues and arbiters (log 2). -/

namespace Sys2Proof.Machine

open Sys2Proof

/-! ## Turns -/

/-- The turn to take: the first of the agenda, else the free schedule's. -/
def nextTurn (s : State) : Turn :=
  match s.agenda with
  | t :: _ => t
  | [] => Config.freeTurn s.tick

/-- The turn begins: it leaves the agenda, a tick is counted, device time passes. -/
def beginTurn (s : State) : State :=
  passTime (nextTurn s).dt { s with agenda := s.agenda.drop 1, tick := s.tick + 1 }

/-- After a turn, the commands whose wait is over end (R233), gangs whose producers have triggered become SUSPENDED (R24),
engine writes that waited for a tag are sent (R175), the faults of the turn have their work records (R238), and the packets that
stayed on the chip are answered (R181). -/
def endTurn (s : State) : State :=
  let t := unblockAll (rerunCmds (settleCmds s))
  settleChip (settleFaults (sendOwed t))

def afterTurn (o : Out) : Out :=
  match o with
  | .next t => .next (endTurn t)
  | .fault f => .fault f
  | .refused r => .refused r

/-! ## SCP -/

/-- What the fetch at the strand's pc comes to. -/
inductive ScpFetch where
  | word (w : W64) (s : State)
  | stop (s : State)

/-- The eight bytes at the pc, through X and the checks of R203. -/
def fetchScp (s : State) (sp : SpId) : ScpFetch :=
  let p := s.sp sp
  let pc := p.r.pc.toNat
  match translate s (.sp sp) p.id.ctx pc .fetch .scp with
  | .error c => .stop (strandFault s sp c pc)
  | .ok lf =>
    let s1 := fillTlb s (.sp sp) p.id.ctx lf
    if poisoned s1.dev.poison (lf.pa pc) 8 then .stop (strandFault s1 sp cMediaError pc)
    else .word (BitVec.ofNat 64 (leNat (s1.physRead (lf.pa pc) 8))) s1

/-- The instruction that a word stands for; a word that is none is an illegal instruction. -/
def scpInstr (w : W64) : Instr := (decodeScp w).toOption.getD (.illegalInstruction w)

/-- A turn of an SCP: an SP that issues fetches and runs one instruction; one whose store-fault records have been delivered and
not yet replayed waits for them (R156); any other stays as it is. -/
def scpTurn (sp : SpId) (s : State) : Out :=
  let p := s.sp sp
  if p.run ≠ .running then .next s
  else if p.replaying then .next ({ s with cur := sp } : State).deliver
  else
    match fetchScp { s with cur := sp } sp with
    | .stop t => .next t
    | .word w t => exec (scpInstr w) t

/-! ## Equinox cores -/

/-- The four bytes at the pc of a core. -/
def eqxWordAt (c : Core) : W32 := BitVec.ofNat 32 (memNat c.imem c.pc.toNat 4)

def isSigwait (w : W32) : Bool :=
  match decodeEqx w with
  | .ok (.sigwait _) => true
  | _ => false

/-- The word of a core: a custom instruction, one of the base set, or an illegal word (R222, R223). -/
def runEqx (w : W32) (s : State) : Out :=
  match decodeEqx w with
  | .ok i => exec i s
  | .error _ =>
    match rvDecode w with
    | some i => .next (execRv (rvLen w) (rvWord w) i s)
    | none => exec (.eqxIllegalInstruction w) s

/-- The exception that the fetch at the pc raises: a misaligned pc, or one outside the instruction memory (log 6). -/
def fetchTrap (c : Core) : Option W64 :=
  if c.pc.toNat % 2 = 1 then some 0
  else if c.pc.toNat + 2 > imemBytes ∨ c.pc.toNat + rvLen (eqxWordAt c) > imemBytes then some 1
  else none

/-- A turn of a core that is active; without an accepted image no core runs (R252). -/
def eqxTurn (core : CoreId) (s : State) : Out :=
  let s1 : State := { s with core := core }
  let c := s1.eqxMe
  if c.status ≠ .active ∨ noFirmware s = true then .next s
  else
    match fetchTrap c with
    | some k => .next (s1.eqxTrap k c.pc)
    | none =>
      let w := eqxWordAt c
      if c.interrupted && !isSigwait w then .next (s1.eqxTrap 0x8000_0000_0000_000B 0)
      else runEqx w s1

/-- An active core does something of the firmware's (log 111). -/
def byCore (core : CoreId) (s : State) (f : State → Out) : Out :=
  if (s.eqx core).status = .active ∧ noFirmware s = false then f { s with core := core } else .next s

/-- A core acts on the oldest packet fetched from a queue (R227, R233). -/
def serve (ctx : CtxId) (qid : BitVec 12) (s : State) : Out :=
  match nextPacket s ctx qid with
  | none => .next s
  | some f =>
    match packetInstr f with
    | some i => exec i s
    | none => .next (serveOther s f)

/-! ## All turns -/

/-- A row that is an event of the device or of its surroundings. -/
def isEvent (i : Instr) : Bool :=
  match i with
  | .illegalInstruction _ => false
  | .eqxIllegalInstruction _ => false
  | i => (encode i).isNone

def actorTurn (a : Actor) (s : State) : Out :=
  match a with
  | .scp sp => scpTurn sp s
  | .kernel sp => .next (kernelTurn { s with cur := sp } sp)
  | .eqx core => eqxTurn core s
  | .copy sp ch => .next (copyTurn s sp ch)
  | .kload sp => .next (kloadTurn s sp)
  | .perform sp k => .next (performWeak s sp k)
  | .grant st => .next (grantStation s st)
  | .held k => .next (retryHeld s k)
  | .event i => if isEvent i then exec i s else .refused (.notEnabled "EVENT")
  | .serve core ctx qid => byCore core s (serve ctx qid)
  | .fwFetch core => byCore core s fun t => .next (fwFetch t)
  | .fwMap core ctx qid => byCore core s fun t => .next (fwMap t ctx qid)
  | .fwFault core k => byCore core s fun t => .next (fwFault t k)
  | .assign core slot => byCore core s fun t => .next (assignSlot t slot)
  | .interrupt core on => .next (s.modEqx core fun c => { c with irq := on })
  | .temperature die temp => .next (measure s die temp)
  | .rdmaOther qp => .next (rdmaOther s qp)
  | .netAck sp ch ok => .next (netAck s sp ch ok)

/-- A module that has powered down does nothing but a reset (R255). -/
def turn (s : State) : Out :=
  let a := (nextTurn s).who
  if s.dev.powered || a = .event .reset then afterTurn (actorTurn a (beginTurn s)) else .fault .poweredDown

/-! ## Placing one instruction (log 26) -/

/-- A core's next word. -/
def placeEqx (s : State) (w : W32) : State :=
  { s.modEqx 0 fun c => { c with imem := memWrite c.imem c.pc.toNat (leBytes 4 w.toNat), status := .active } with
    agenda := [⟨.eqx 0, 0⟩] }

/-- Where a placed strand begins: its page maps the first 16 GiB onto themselves. -/
def placeRoot : Nat := 0x4000
def placeTable : Nat := 0x8000
def placePc : Nat := 0x1_0000

/-- A strand of SP 0 in context 0 whose next instruction is `w`. -/
def placeScp (s : State) (w : W64) : State :=
  let s1 := ((s.physWrite placeRoot (leBytes 8 (placeTable + 1))).physWrite placeTable (leBytes 8 0x193)).physWrite placePc
    (leBytes 8 w.toNat)
  { (s1.modCtx 0 fun c => { c with alive := true, ptbase := BitVec.ofNat 64 placeRoot }).modSp 0 fun p =>
      { p with run := .running, pend := .none, id := { p.id with ctx := 0 }
               r := { p.r with pc := BitVec.ofNat 64 placePc } } with
    agenda := [⟨.scp 0, 0⟩] }

/-- The op of a placed kernel. -/
def placeOp : StreamOp :=
  ⟨0, none, 0, 0, 0, .krun 0 false ⟨Vector.replicate 8 0, Vector.replicate 8 KBind.init, 4096⟩⟩

/-- A kernel of SP 0 whose first bundle is `w`. -/
def placeKernel (s : State) (w : BundleWord) : State :=
  { s.modSp 0 fun p =>
      { p with
        run := .running, kim := setAt 0 p.kim 0 w
        ke := { p.ke with
          stepNo := 0, infl := [], rep := none
          run := some { op := placeOp, entry := 0
                        blk := ⟨Vector.replicate 8 0, Vector.replicate 8 KBind.init, 4096⟩
                        kpc := 0, due := 0, phase := .issuing, since := none, nits := none } } } with
    agenda := [⟨.kernel 0, 0⟩] }

def placeWord (s : State) (nbits w : Nat) : State :=
  if nbits ≤ 32 then placeEqx s (BitVec.ofNat 32 w)
  else if nbits ≤ 64 then placeScp s (BitVec.ofNat 64 w)
  else placeKernel s (BitVec.ofNat 512 w)

end Sys2Proof.Machine
end

