-- ==== Sys2Proof/Safety.lean ====
section
/-! DEFINITION. What the statements about the machine are said in: the invariant of every state that a step keeps, what
it means that an instruction leaves memory or everything but its own SP as it was, and the shapes in which SCP, kernel
and Equinox instructions complete. -/

namespace Sys2Proof.Machine

open Sys2Proof

/-! ## The invariant -/

/-- Memory is in its canonical form: addresses rise strictly and no listed byte is what an unlisted one reads as. -/
def Inv (s : State) : Prop := Memory.wf s.mem = true

/-! ## Frames -/

/-- Every byte of memory reads as before. -/
def SameMem (s t : State) : Prop := ∀ a, memByte t.mem a = memByte s.mem a

/-- Every byte of memory outside the `n` bytes at `a` reads as before. -/
def SameMemBut (s t : State) (a n : Nat) : Prop :=
  ∀ x, (x < a ∨ a + n ≤ x) → memByte t.mem x = memByte s.mem x

/-- Nothing but the SP under execution has changed. -/
def OnlyMe (s t : State) : Prop := t = { s with sps := t.sps } ∧ ∀ i, i ≠ s.cur → t.sp i = s.sp i

/-- Nothing but the Equinox core under execution has changed. -/
def OnlyCore (s t : State) : Prop := t = { s with cores := t.cores } ∧ ∀ i, i ≠ s.core → t.eqx i = s.eqx i

/-! ## SCP instructions -/

/-- An SCP instruction has done nothing but write `v` to s[d] (discarded for s0) and move on by 8 bytes. -/
structure Wrote (s t : State) (d : SReg) (v : W64) : Prop where
  only : OnlyMe s t
  mem  : SameMem s t
  rest : t.me = { s.me with r := { s.me.r with s := t.me.r.s, pc := t.me.r.pc }, pend := .none }
  pc   : t.me.r.pc = pc56 (s.me.r.pc + 8)
  zero : t.sreg 0 = 0
  dest : d ≠ 0 → t.sreg d = v
  keep : ∀ j, j ≠ d → t.sreg j = s.sreg j

/-- The same with the given AFLAGS, besides. -/
structure WroteFlags (s t : State) (d : SReg) (v : W64) (fl : BitVec 7) : Prop where
  only : OnlyMe s t
  mem  : SameMem s t
  rest : t.me = { s.me with r := { s.me.r with s := t.me.r.s, pc := t.me.r.pc, aflags := fl }, pend := .none }
  pc   : t.me.r.pc = pc56 (s.me.r.pc + 8)
  zero : t.sreg 0 = 0
  dest : d ≠ 0 → t.sreg d = v
  keep : ∀ j, j ≠ d → t.sreg j = s.sreg j

/-- An SCP instruction has done nothing but go to `pc`. -/
structure WentTo (s t : State) (pc : W64) : Prop where
  only : OnlyMe s t
  mem  : SameMem s t
  rest : t.me = { s.me with r := { s.me.r with pc := pc }, pend := .none }

/-- An SCP instruction has left everything but its strand's registers, position and wait as it was; the registers are
`r`. -/
structure SetRegs (s t : State) (r : ScpRegs) : Prop where
  only : OnlyMe s t
  mem  : SameMem s t
  rest : t.me = { s.me with r := r, pend := .none }

/-- Nothing has changed but the SP under execution, which is now `p`, and when the save of a gang began (R221). -/
structure StoppedAt (s t : State) (p : Sp) : Prop where
  rest  : t = { s with sps := t.sps, gangs := t.gangs }
  sps   : ∀ i, i ≠ s.cur → t.sp i = s.sp i
  me    : t.me = p
  gangs : ∀ j : Nat, (t.gangs[j]?).map (fun g : Gang => { g with saveAt := none })
            = (s.gangs[j]?).map fun g => { g with saveAt := none }

/-- The address of the next instruction. -/
def State.after (s : State) : W64 := pc56 (s.me.r.pc + 8)

/-- An access of the strand translates to a page of this accelerator's memory (NORMAL or HOST) that is not poisoned. -/
structure LocalPage (s : State) (va n : Nat) (u : Use) (ag : Agent) (lf : Leaf) : Prop where
  page : translate s (.sp s.cur) s.myCtx va u ag = .ok lf
  kind : lf.kind = 0 ∨ lf.kind = 3
  good : poisoned s.dev.poison (lf.pa va) n = false

/-- Such a page, with no write of the strand that loops back to it still open (R140, R169). -/
structure FreePage (s : State) (va n : Nat) (u : Use) (ag : Agent) (lf : Leaf) : Prop extends LocalPage s va n u ag lf where
  loop : loopBusy s none none (lf.pa va) n = false

/-- A request to `acc` comes after no earlier access of the strand: the target is another device, or the strand has no store in
flight and no posted remote write open (R140, R169). -/
def LoopFree (s : State) (acc : BitVec 11) : Prop := acc = s.dev.accId → s.me.sto.weak = [] ∧ remoteOpen s = false

/-- The device after the strand under execution has made one packet that stays on the chip (R165). -/
def State.pkt (s : State) (urg : BitVec 2) : Dev := (s.chip s.myCtx (ssidScp s.cur) (s.slack urg) 1).dev

/-- An SCP instruction that has accessed memory through the TLBs of its SP and die has, besides what `Wrote` says of `x`, kept
the translation there; the device, which counts the packets, is `v`. -/
structure Loaded (s t : State) (d : SReg) (x : W64) (v : Dev) : Prop where
  rest : t = { s with sps := t.sps, dies := t.dies, dev := v }
  sps  : ∀ i, i ≠ s.cur → t.sp i = s.sp i
  dies : ∀ x, t.die x = { s.die x with l2 := (t.die x).l2 }
  mem  : SameMem s t
  me   : t.me = { s.me with r := { s.me.r with s := t.me.r.s, pc := s.after }, pend := .none, tlb := t.me.tlb }
  dest : d ≠ 0 → t.sreg d = x
  keep : ∀ j, j ≠ d → t.sreg j = s.sreg j

/-- The same for an instruction that stores the bytes `b` at the physical address `pa` and counts one store. -/
structure Stored (s t : State) (pa : Nat) (b : List Byte) (v : Dev) : Prop where
  rest : t = { s with
           mem := t.mem, sps := t.sps, dies := t.dies, resv := t.resv, dev := { v with poison := t.dev.poison } }
  sps  : ∀ i, i ≠ s.cur → t.sp i = s.sp i
  dies : ∀ x, t.die x = { s.die x with l2 := (t.die x).l2 }
  me   : t.me = { s.me with
           r := { s.me.r with pc := s.after }, pend := .none, tlb := t.me.tlb
           sto := { s.me.sto with seq := s.me.sto.seq + 1 } }
  data : t.physRead pa b.length = b
  mem  : SameMemBut s t pa b.length

/-- A store has gone into flight (R88, R154): besides the translation kept, only the strand's stores in flight, their count, its
pc and the packets of the device, which is `v`, have changed. -/
structure StoreFlies (s t : State) (w : WeakStore) (v : Dev) : Prop where
  rest : t = { s with sps := t.sps, dies := t.dies, dev := v }
  sps  : ∀ i, i ≠ s.cur → t.sp i = s.sp i
  dies : ∀ x, t.die x = { s.die x with l2 := (t.die x).l2 }
  me   : t.me = { s.me with
           r := { s.me.r with pc := s.after }, pend := .none, tlb := t.me.tlb
           sto := { s.me.sto with weak := s.me.sto.weak ++ [w], seq := s.me.sto.seq + 1 } }

/-- A store fault has been recorded (R154, R155): besides the translation kept, only the strand's records, their count and its pc
have changed. -/
structure FaultNoted (s t : State) (r : SfRecord) : Prop where
  rest : t = { s with sps := t.sps, dies := t.dies }
  sps  : ∀ i, i ≠ s.cur → t.sp i = s.sp i
  dies : ∀ x, t.die x = { s.die x with l2 := (t.die x).l2 }
  me   : t.me = { s.me with
           r := { s.me.r with pc := s.after }, pend := .none, tlb := t.me.tlb
           sto := { s.me.sto with records := s.me.sto.records ++ [r], seq := s.me.sto.seq + 1 } }

/-- A release at a scope completes at once: nothing is in flight that it performs or waits for, and no error of a window
lies within the scope (R77, R144, R154). -/
structure Released (s : State) (scope : BitVec 3) : Prop where
  recs : s.me.sto.records = []
  weak : s.me.sto.weak = []
  open_ : 4 ≤ scope.toNat → remoteOpen s = false
  err  : windowErr s scope = none

/-- The strand under execution stands on seat `n` of gang `gi`. -/
structure OnSeat (s : State) (gi n : Nat) (g : Gang) (q : Seat) : Prop where
  gang : s.me.gang = some gi
  seat : s.me.id.seat.toNat = n
  here : s.gangs[gi]? = some g
  mine : g.seats[n]? = some q

/-- A seat of a gang as a state has it. -/
def State.seatAt (s : State) (gi n : Nat) : Option Seat := (s.gangs[gi]?).bind fun g => g.seats[n]?

/-! ## Numbers -/

/-- 2^e. -/
def pow2 (e : Int) : Rat := if e < 0 then 1 / (2 : Rat) ^ (-e).toNat else (2 : Rat) ^ e.toNat

/-- The exact value of a finite number; 0 for the others. -/
def NumVal.val : NumVal → Rat
  | .fin n m e => (if n then -1 else 1) * (m : Rat) * pow2 e
  | _ => 0

def NumVal.isFin : NumVal → Bool
  | .fin .. => true
  | _ => false

/-- `c` is a finite code of a format. -/
def FFmt.finite (f : FFmt) (c : Nat) : Prop := c < 2 * f.signBit ∧ (f.decode c).isFin = true

/-- The value of a code, and the greatest finite value of a format. -/
def FFmt.val (f : FFmt) (c : Nat) : Rat := (f.decode c).val
def FFmt.top (f : FFmt) : Rat := f.val f.maxCode

/-- How far two values lie apart. -/
def gap (x y : Rat) : Rat := if x < y then y - x else x - y

/-- The finite code `c` is the exact value `v` rounded once in a mode (R130): to nearest, the even code of a tie; toward zero;
down; up. -/
def FFmt.Rounds (f : FFmt) (mode : Rnd) (v : Rat) (c : Nat) : Prop :=
  f.finite c ∧ match mode with
    | .rne => ∀ d, f.finite d → gap (f.val c) v ≤ gap (f.val d) v
        ∧ (gap (f.val c) v = gap (f.val d) v → f.val c = f.val d ∨ c % 2 = 0)
    | .rtz => (0 ≤ v → f.val c ≤ v ∧ ∀ d, f.finite d → f.val d ≤ v → f.val d ≤ f.val c)
        ∧ (v ≤ 0 → v ≤ f.val c ∧ ∀ d, f.finite d → v ≤ f.val d → f.val c ≤ f.val d)
    | .rdn => f.val c ≤ v ∧ ∀ d, f.finite d → f.val d ≤ v → f.val d ≤ f.val c
    | .rup => v ≤ f.val c ∧ ∀ d, f.finite d → v ≤ f.val d → f.val c ≤ f.val d

/-- Neither above the greatest finite value nor below its negative. -/
def FFmt.fits (f : FFmt) (v : Rat) : Prop := -f.top ≤ v ∧ v ≤ f.top

/-- The integer `r` is `v` rounded once in a mode. -/
def intRounds (mode : Rnd) (v : Rat) (r : Int) : Prop :=
  match mode with
  | .rne => gap r v ≤ 1 / 2 ∧ (gap r v = 1 / 2 → r % 2 = 0)
  | .rtz => (0 ≤ v → (r : Rat) ≤ v ∧ v < r + 1) ∧ (v ≤ 0 → v ≤ r ∧ (r : Rat) - 1 < v)
  | .rdn => (r : Rat) ≤ v ∧ v < r + 1
  | .rup => v ≤ r ∧ (r : Rat) - 1 < v

/-! ## Kernel slots -/

/-- A name is there: bank 3 is not lent, or the register behind the name is not in it (R104, R320). -/
def KEngine.Has (e : KEngine) (n : BitVec 5) : Prop := e.gone (e.phys n).val = false

/-- A vector source is there. -/
def KEngine.HasSrc (e : KEngine) (x : VSrc) : Prop := x.sel.toNat < 32 → e.Has (x.sel.setWidth 5)

/-- Nothing is in flight, and no slot is occupied: what a bundle finds when every earlier one has landed. -/
structure KEngine.Settled (e : KEngine) : Prop where
  infl : e.infl = []
  mul  : e.mulFree ≤ e.stepNo
  dr   : e.drFree ≤ e.stepNo
  vb   : e.vbFree ≤ e.stepNo
  xs   : e.xsFree ≤ e.stepNo

/-- Results of one latency put in flight in the clusters in which a guard is true, in cluster order. -/
def KEngine.inAll (e : KEngine) (g : Guard) (lat : Nat) (f : ClId → Landing) : List InFlight :=
  (e.active g).map fun c => ⟨c, e.stepNo + lat, f c⟩

/-- A slot op has put `new` in flight, behind what was, has raised the flags `fl`, and has left the hold latches and the
cursors as `hold` and `q` say. Nothing else has changed but the slots' occupancy and the mark of a freeze that is over. -/
structure IssuedWith (s t : State) (new : List InFlight) (fl : ClId → KF) (hold : ClId → Vector VReg 10)
    (q : ClId → Vector (BitVec 23) 8) : Prop where
  only : OnlyMe s t
  mem  : SameMem s t
  rest : t.me = { s.me with ke := t.me.ke }
  ke   : t.me.ke = { s.me.ke with
           cl := t.me.ke.cl, infl := s.me.ke.infl ++ new, run := s.me.ke.run.map fun k => { k with since := none }
           mulFree := t.me.ke.mulFree, drFree := t.me.ke.drFree, vbFree := t.me.ke.vbFree, xsFree := t.me.ke.xsFree }
  cl   : ∀ c : ClId, t.me.ke.cl[c] = { s.me.ke.cl[c] with
           kflags := s.me.ke.cl[c].kflags ||| fl c, hold := hold c, q := q c }

/-- The cursors as they are. -/
def KEngine.qs (e : KEngine) (c : ClId) : Vector (BitVec 23) 8 := e.cl[c].q

/-- The hold latches after an op that reads the given sources, each through the latch of its position, in the clusters in
`act` (R92): a source with H = 1 loads its latch. -/
def KEngine.latched (e : KEngine) (act : ClId → Bool) (w : Nat) (l : List (Fin 10 × VSrc)) (c : ClId) :
    Vector VReg 10 :=
  if act c then
    l.foldl (fun h x => if x.2.hold then h.set x.1 (srcVal e c x.1 w x.2) else h) e.cl[c].hold
  else e.cl[c].hold

/-- `IssuedWith` for an op that reads no vector source and moves no cursor. -/
def Issued (s t : State) (new : List InFlight) (fl : ClId → KF) : Prop :=
  IssuedWith s t new fl (fun c => s.me.ke.cl[c].hold) s.me.ke.qs

/-- Flags of an op in the clusters in which its guard is true. -/
def KEngine.flagsOn (e : KEngine) (g : Guard) (f : ClId → KF) (c : ClId) : KF := if e.on g c then f c else 0

/-- The flags that the elements acted on raise together. -/
def KEngine.elemFlags (e : KEngine) (c : ClId) (w : Nat) (m : MSel) (f : Nat → KF) : KF :=
  orFlags ((List.range (nElems w)).map fun i => if elemOn e c w m i then f i else 0)

/-- An op of a vector slot completes: with its operand fields as the encoding asks, its registers there and nothing in
flight, in every cluster in which the guard is true, element `i` of the destination, where the mask admits it, is to become
`(f c i).1`, and `(f c i).2` is raised. -/
def VecDone (i : Instr) (s : State) (g : Guard) (lat w : Nat) (vd : BitVec 5) (m : MSel) (ws : Nat)
    (l : List (Fin 10 × VSrc)) (f : ClId → Nat → Nat × KF) : Prop :=
  let e := s.me.ke
  WellFormed i = true → e.Settled → e.Has vd → (∀ x ∈ l, e.HasSrc x.2) →
  ∃ t, exec i s = .next t
    ∧ IssuedWith s t
        (e.inAll g lat fun c => .vreg (e.phys vd) (ofElems w fun j => (f c j).1) (writeMask e c w m))
        (e.flagsOn g fun c => e.elemFlags c w m fun j => (f c j).2) (e.latched (e.on g) ws l) e.qs

/-! ## Launches -/

/-- A launch has been halted with a cause (R218): FAILED, no task READY, no gang live, no walker, captured range, pool entry or
ready task left. It is live only while its event record waits for a page of the ring (R42, R251). -/
structure LaunchHalted (t : State) (k : Nat) (c : Cause) : Prop where
  ended : ∃ l, t.launches[k]? = some l ∧ l.phase = .failed ∧ l.cause = c ∧ (l.gone = true ∨ recordWaits t k = true)
            ∧ ∀ x ∈ l.tasks, x.status ≠ .ready
  dies : ∀ d : DieId, k ∉ (t.die d).pool ∧ (∀ x ∈ (t.die d).ready, x.launch ≠ k)
    ∧ ∀ w : Fin 16, (t.die d).walkers[w].holds k = false
  gangs : ∀ g ∈ t.gangs, g.launch = k → g.live = false
  saved : ∀ i : CtxId, (∀ x ∈ (t.ctx i).saved, x.launch ≠ k) ∧ ∀ x ∈ (t.ctx i).savedPool, x.2 ≠ k

/-! ## Page tables -/

/-- The walk of `va` goes from a root table through the tables `t1`, `t2` and `t3`, and the leaf's entry lies apart from the
entries above it. -/
structure TablePath (m : List Host.Cell) (root va t1 t2 t3 : Nat) : Prop where
  one   : memNat m (root + 8 * tableIdx va 0) 8 = t1 + 1
  two   : memNat m (t1 + 8 * tableIdx va 1) 8 = t2 + 1
  three : memNat m (t2 + 8 * tableIdx va 2) 8 = t3 + 1
  table : root % 2 ^ 14 = 0 ∧ t1 % 2 ^ 14 = 0 ∧ t2 % 2 ^ 14 = 0 ∧ t3 % 2 ^ 14 = 0 ∧ t1 < 2 ^ 46 ∧ t2 < 2 ^ 46 ∧ t3 < 2 ^ 46
  apart : root + 8 * tableIdx va 0 ≠ t3 + 8 * tableIdx va 3 ∧ t1 + 8 * tableIdx va 1 ≠ t3 + 8 * tableIdx va 3
          ∧ t2 + 8 * tableIdx va 2 ≠ t3 + 8 * tableIdx va 3

/-! ## Equinox cores and commands -/

/-- The core under execution has written `v` to x[d] (discarded for x0), moved on by 4 bytes and counted the instruction;
nothing else of the core has changed. -/
structure CoreWrote (s t : State) (d : BitVec 5) (v : W64) : Prop where
  rest : t.eqxMe = { s.eqxMe with x := t.eqxMe.x, pc := s.eqxMe.pc + 4, instret := s.eqxMe.instret + 1 }
  cores : ∀ i, i ≠ s.core → t.eqx i = s.eqx i
  zero : t.xreg 0 = 0
  dest : d ≠ 0 → t.xreg d = v
  keep : ∀ j, j ≠ d → t.xreg j = s.xreg j

/-- The packet `f`, fetched from its queue and next to be acted on, holds the command `c` of this code, with an aligned result
address. -/
def CmdServed (code : BitVec 16) (c : Cmd) (s : State) (f : Fetched) : Prop :=
  packetReady s 2 code c = some f ∧ c.rslt.toNat % 8 = 0

/-- The state on which a command acts: the entry of its queue has been read, its packet is taken and its work record written. -/
def State.working (s : State) (f : Fetched) (c : Cmd) (code : BitVec 16) : State :=
  beginWork (dropPacket (readEntry s f.ctx f.qid) f) c code

/-- The command of packet `f` performs its effect, of which `P` says what state it leaves, and ends: its result word has the
cause SUCCESS and this VALUE. -/
def Ends (i : Instr) (code : BitVec 16) (c : Cmd) (s : State) (f : Fetched) (v : Nat) (P : State → Prop) : Prop :=
  CmdServed code c s f → ∃ u, exec i s = .next (endCmd u c code 0 v) ∧ P u

/-- The command of packet `f` performs its effect and is pending: its result word, with VALUE `v`, is written when `w` is over. -/
def Pends (i : Instr) (code : BitVec 16) (c : Cmd) (s : State) (f : Fetched) (w : CmdWait) (v : Nat) (P : State → Prop) : Prop :=
  CmdServed code c s f →
    ∃ u, exec i s = .next (u.modDev fun d => { d with cmds := d.cmds ++ [⟨c, code, w, v⟩] }) ∧ P u

/-- The command of packet `f` ends with a cause and a VALUE and has no effect. -/
def Fails (i : Instr) (code : BitVec 16) (c : Cmd) (s : State) (f : Fetched) (k : Cause) (v : Nat) : Prop :=
  CmdServed code c s f → exec i s = .next (endCmd (s.working f c code) c code k v)

end Sys2Proof.Machine
end

