-- ==== Sys2Proof/Certificates/Slice0/Obligations.lean ====
section
/-! DEFINITION. The statements about the machine that are to be proved. Each docstring names the rules of spec/ that the
statement rests on. -/

open Sys2Proof Sys2Proof.Machine

/-! ## SCP: integer instructions -/

/-- R279, R378, R333: sums, differences and the low half of products are taken mod 2^64; the high half is that of the exact
product, signed or unsigned. Nothing else changes. -/
def Obligations.SumsAndProducts : Prop :=
  ∀ (d a b : SReg) (s : State),
    (∃ t, exec (.add d a b) s = .next t ∧ Wrote s t d (s.sreg a + s.sreg b))
    ∧ (∃ t, exec (.sub d a b) s = .next t ∧ Wrote s t d (s.sreg a - s.sreg b))
    ∧ (∃ t, exec (.mul d a b) s = .next t ∧ Wrote s t d (s.sreg a * s.sreg b))
    ∧ (∃ t v, exec (.mulh true d a b) s = .next t ∧ Wrote s t d v
        ∧ v.toInt = (s.sreg a).toInt * (s.sreg b).toInt / 2 ^ 64)
    ∧ (∃ t v, exec (.mulh false d a b) s = .next t ∧ Wrote s t d v
        ∧ v.toNat = (s.sreg a).toNat * (s.sreg b).toNat / 2 ^ 64)

/-- R300, R350: quotient and remainder are rounded toward zero; a divisor of 0 gives all ones or the dividend and sets IDZ
(bit 6 of AFLAGS); −2^63 by −1 gives −2^63 and 0. -/
def Obligations.Division : Prop :=
  ∀ (sgn : Bool) (d a b : SReg) (s : State),
    (s.sreg b = 0 →
      (∃ t, exec (.div sgn d a b) s = .next t
        ∧ WroteFlags s t d 0xFFFF_FFFF_FFFF_FFFF (setIdz s.me.r.aflags))
      ∧ (∃ t, exec (.rem sgn d a b) s = .next t ∧ WroteFlags s t d (s.sreg a) (setIdz s.me.r.aflags)))
    ∧ (s.sreg b ≠ 0 →
      (∃ t q, exec (.div sgn d a b) s = .next t ∧ Wrote s t d q
        ∧ (sgn = true → ¬ (s.sreg a = 0x8000_0000_0000_0000 ∧ s.sreg b = 0xFFFF_FFFF_FFFF_FFFF) →
            q.toInt = Int.tdiv (s.sreg a).toInt (s.sreg b).toInt)
        ∧ (sgn = true → s.sreg a = 0x8000_0000_0000_0000 → s.sreg b = 0xFFFF_FFFF_FFFF_FFFF →
            q = 0x8000_0000_0000_0000)
        ∧ (sgn = false → q.toNat = (s.sreg a).toNat / (s.sreg b).toNat))
      ∧ (∃ t m, exec (.rem sgn d a b) s = .next t ∧ Wrote s t d m
        ∧ (sgn = true → m.toInt = Int.tmod (s.sreg a).toInt (s.sreg b).toInt)
        ∧ (sgn = false → m.toNat = (s.sreg a).toNat % (s.sreg b).toNat)))

/-- R279, R338, R416, R369: bitwise operations, and shifts by s[B][5:0]. R280, R321, R335, R290: immediates are sign-
extended; bfx and bfi take and place a field of w = wm1 + 1 bits that ends at or below bit 63. -/
def Obligations.LogicShiftsImmediates : Prop :=
  (∀ (d a b : SReg) (s : State),
      (∃ t, exec (.and d a b) s = .next t ∧ Wrote s t d (s.sreg a &&& s.sreg b))
      ∧ (∃ t, exec (.or d a b) s = .next t ∧ Wrote s t d (s.sreg a ||| s.sreg b))
      ∧ (∃ t, exec (.xor d a b) s = .next t ∧ Wrote s t d (s.sreg a ^^^ s.sreg b))
      ∧ (∃ t v, exec (.shl d a b) s = .next t ∧ Wrote s t d v
          ∧ v.toNat = (s.sreg a).toNat * 2 ^ ((s.sreg b).toNat % 64) % 2 ^ 64)
      ∧ (∃ t v, exec (.shr d a b) s = .next t ∧ Wrote s t d v
          ∧ v.toNat = (s.sreg a).toNat / 2 ^ ((s.sreg b).toNat % 64))
      ∧ (∃ t v, exec (.sra d a b) s = .next t ∧ Wrote s t d v
          ∧ v.toInt = (s.sreg a).toInt / 2 ^ ((s.sreg b).toNat % 64)))
  ∧ (∀ (d a : SReg) (imm : BitVec 20) (big : BitVec 50) (lsb wm1 : BitVec 6) (s : State),
      (∃ t, exec (.addi d a imm) s = .next t ∧ Wrote s t d (s.sreg a + imm.signExtend 64))
      ∧ (∃ t, exec (.li d big) s = .next t ∧ Wrote s t d (big.signExtend 64))
      ∧ (∃ t, exec .nop s = .next t ∧ WentTo s t s.after)
      ∧ (lsb.toNat + (wm1.toNat + 1) ≤ 64 →
          (∃ t v, exec (.bfx d a lsb wm1) s = .next t ∧ Wrote s t d v
            ∧ v.toNat = (s.sreg a).toNat / 2 ^ lsb.toNat % 2 ^ (wm1.toNat + 1))
          ∧ (∃ t v, exec (.bfi d a lsb wm1) s = .next t ∧ Wrote s t d v
            ∧ ∀ i : Nat, i < 64 → v.getLsbD i =
                (if lsb.toNat ≤ i ∧ i < lsb.toNat + (wm1.toNat + 1) then (s.sreg a).getLsbD (i - lsb.toNat)
                  else (s.sreg d).getLsbD i))))

/-- R324, R296: the lesser and the greater as signed or unsigned values; a choice by s[C]. R259, R295: the six conditions of
cmp: eq, ne, lt, ge signed, ltu, geu unsigned. -/
def Obligations.MinMaxCompareSelect : Prop :=
  (∀ (d a b c : SReg) (s : State),
      (∃ t v, exec (.min true d a b) s = .next t ∧ Wrote s t d v
          ∧ v.toInt = Min.min (s.sreg a).toInt (s.sreg b).toInt)
      ∧ (∃ t v, exec (.min false d a b) s = .next t ∧ Wrote s t d v
          ∧ v.toNat = Min.min (s.sreg a).toNat (s.sreg b).toNat)
      ∧ (∃ t v, exec (.max true d a b) s = .next t ∧ Wrote s t d v
          ∧ v.toInt = Max.max (s.sreg a).toInt (s.sreg b).toInt)
      ∧ (∃ t v, exec (.max false d a b) s = .next t ∧ Wrote s t d v
          ∧ v.toNat = Max.max (s.sreg a).toNat (s.sreg b).toNat)
      ∧ (∃ t, exec (.csel d a b c) s = .next t
          ∧ Wrote s t d (if s.sreg c ≠ 0 then s.sreg a else s.sreg b)))
  ∧ (∀ (d a b : SReg) (s : State),
      (∃ t, exec (.cmp 0 d a b) s = .next t ∧ Wrote s t d (if s.sreg a = s.sreg b then 1 else 0))
      ∧ (∃ t, exec (.cmp 1 d a b) s = .next t ∧ Wrote s t d (if s.sreg a ≠ s.sreg b then 1 else 0))
      ∧ (∃ t, exec (.cmp 2 d a b) s = .next t ∧ Wrote s t d (if (s.sreg a).toInt < (s.sreg b).toInt then 1 else 0))
      ∧ (∃ t, exec (.cmp 3 d a b) s = .next t ∧ Wrote s t d (if (s.sreg b).toInt ≤ (s.sreg a).toInt then 1 else 0))
      ∧ (∃ t, exec (.cmp 4 d a b) s = .next t ∧ Wrote s t d (if (s.sreg a).toNat < (s.sreg b).toNat then 1 else 0))
      ∧ (∃ t, exec (.cmp 5 d a b) s = .next t ∧ Wrote s t d (if (s.sreg b).toNat ≤ (s.sreg a).toNat then 1 else 0)))

/-- R288: where the branches go, for a condition that holds and a target that is a multiple of 8 below 2^56; the link of jal
is the address after the branch. -/
def Obligations.Branches : Prop :=
  ∀ (cond : BitVec 4) (d a b : SReg) (imm : BitVec 20) (s : State),
    let target : W64 := s.me.r.pc + imm.signExtend 64 * 8
    (target &&& 0xFF00_0000_0000_0007 = 0 →
      (cond.toNat < 6 → condHolds cond (s.sreg a) (s.sreg b) = true →
        ∃ t, exec (.b cond a b imm) s = .next t ∧ WentTo s t target)
      ∧ (∃ t, exec (.j imm) s = .next t ∧ WentTo s t target)
      ∧ (∃ t, exec (.jal d imm) s = .next t ∧ SetRegs s t { s.me.r.put d (s.me.r.pc + 8) with pc := target }))
    ∧ (cond.toNat < 6 → condHolds cond (s.sreg a) (s.sreg b) = false →
        ∃ t, exec (.b cond a b imm) s = .next t ∧ WentTo s t s.after)
    ∧ (s.sreg a &&& 0xFF00_0000_0000_0007 = 0 → ∃ t, exec (.jr a) s = .next t ∧ WentTo s t (s.sreg a))

/-- R257, R288, R290, R295, R260: a reserved condition or field, a field that passes bit 63, a special register that is not
there, and a branch target outside the 56 bits or not a multiple of 8 raise ILLEGAL_INSTRUCTION: the task fails, and no
register is written. R198, R223, R261: a word that no SCP instruction encodes fails the task with ILLEGAL_INSTRUCTION,
and a word that is neither a custom instruction nor one of the base set takes the core's illegal-instruction exception.
R199, R380, R384: trap takes a user trap with cause TRAP_USER, and tfence one with ARITH_TRAP when an enabled flag of
AFLAGS is set: EPC is the next instruction, ACTIVE becomes 1, the strand goes on at the handler. Inside a handler the
trap is TRAP_NESTED, and with no handler TRAP_NO_HANDLER; both are fatal to the task. -/
def Obligations.StrandFaults : Prop :=
  (∀ (cond : BitVec 4) (d a b : SReg) (imm : BitVec 20) (lsb wm1 : BitVec 6) (num : BitVec 12) (s : State),
      let ill : Host.Outcome State Fault Refusal := .next (failStrand s s.cur cIllegalInstruction)
      (6 ≤ cond.toNat → exec (.cmp cond d a b) s = ill ∧ exec (.b cond a b imm) s = ill)
      ∧ (64 < lsb.toNat + (wm1.toNat + 1) → exec (.bfx d a lsb wm1) s = ill ∧ exec (.bfi d a lsb wm1) s = ill)
      ∧ (sgetOk num = false → exec (.sget d num) s = ill)
      ∧ (ssetOk num = false → exec (.sset a num) s = ill)
      ∧ ((s.me.r.pc + imm.signExtend 64 * 8) &&& 0xFF00_0000_0000_0007 ≠ 0 →
          exec (.j imm) s = ill ∧ exec (.jal d imm) s = ill
          ∧ (cond.toNat < 6 → condHolds cond (s.sreg a) (s.sreg b) = true → exec (.b cond a b imm) s = ill))
      ∧ (s.sreg a &&& 0xFF00_0000_0000_0007 ≠ 0 → exec (.jr a) s = ill))
  ∧ (∀ (w : W64) (v : W32) (s : State),
      ((∃ e, decodeScp w = .error e) → exec (.illegalInstruction w) s = .next (failStrand s s.cur cIllegalInstruction))
      ∧ (∀ i, decodeScp w = .ok i → exec (.illegalInstruction w) s = .refused (.notEnabled "ILLEGAL_INSTRUCTION"))
      ∧ ((∃ e, decodeEqx v = .error e) → rvDecode v = none →
          ∃ t, exec (.eqxIllegalInstruction v) s = .next t
            ∧ t.eqxMe = takeException s.eqxMe 2 ((rvWord v).setWidth 64) ∧ t.core = s.core)
      ∧ ((∃ i, decodeEqx v = .ok i) ∨ (rvDecode v).isSome = true →
          exec (.eqxIllegalInstruction v) s = .refused (.notEnabled "EQX_ILLEGAL_INSTRUCTION"))
      ∧ rvDecode 0 = none ∧ rvDecode 0xFFFF_FFFF = none ∧ rvDecode 0x0000_0007 = none)
  ∧ (∀ (code : BitVec 20) (s : State),
      s.me.sto.records = [] →
      let enter (c : Cause) (i : Instr) : Prop :=
        (s.me.r.trapCause.getLsbD 10 = false → s.me.r.trapPc &&& 0x00FF_FFFF_FFFF_FFF8 ≠ 0 →
          ∃ t x, exec i s = .next t
            ∧ SetRegs s t { s.me.r with pc := s.me.r.trapPc &&& 0x00FF_FFFF_FFFF_FFF8, trapCause := x }
            ∧ x.extractLsb' 0 10 = c ∧ x.getLsbD 10 = true ∧ x.extractLsb' 11 53 = s.after.extractLsb' 3 53)
        ∧ (s.me.r.trapCause.getLsbD 10 = true →
            ∃ u, SetRegs s u s.me.r ∧ exec i s = .next (failStrand u s.cur cTrapNested))
        ∧ (s.me.r.trapCause.getLsbD 10 = false → s.me.r.trapPc &&& 0x00FF_FFFF_FFFF_FFF8 = 0 →
            ∃ u x, SetRegs s u { s.me.r with trapCause := x } ∧ x.extractLsb' 0 10 = c
              ∧ exec i s = .next (failStrand u s.cur cTrapNoHandler))
      enter cTrapUser (.trap code)
      ∧ (s.me.r.aflags &&& s.me.r.afenable ≠ 0 → enter cArithTrap .tfence)
      ∧ (s.me.r.aflags &&& s.me.r.afenable = 0 → ∃ t, exec .tfence s = .next t ∧ WentTo s t s.after))

/-! ## SCP: special registers, fences, the strand and its gang -/

/-- R260, R368: what sget reads, register by register. R74, R75, R199, R200, R260, R368: what sset writes; a field that is
read-only keeps its bits. R411: wset loads a window whose writes have all been acknowledged and that holds no error; it
faults on an RBASE that is no multiple of 128, waits for OUTST to reach 0, and delivers a sticky error. -/
def Obligations.SpecialRegisters : Prop :=
  (∀ (d : SReg) (s : State),
      let reads (n : BitVec 12) (v : W64) : Prop := ∃ t, exec (.sget d n) s = .next t ∧ Wrote s t d v
      let r := s.me.r
      let i := s.me.id
      reads 0x000 (i.seat.setWidth 64) ∧ reads 0x001 (i.gangn.setWidth 64)
      ∧ reads 0x002 (i.x.setWidth 64) ∧ reads 0x003 (i.y.setWidth 64) ∧ reads 0x004 (i.z.setWidth 64)
      ∧ reads 0x005 (i.w.setWidth 64) ∧ reads 0x006 (i.launchId.setWidth 64) ∧ reads 0x007 (BitVec.ofNat 64 i.ctx.val)
      ∧ reads 0x008 (r.slk[0].setWidth 64) ∧ reads 0x009 (r.slk[1].setWidth 64) ∧ reads 0x00A (r.slk[2].setWidth 64)
      ∧ reads 0x00B (r.slk[3].setWidth 64) ∧ reads 0x00C r.trapPc ∧ reads 0x00D r.trapCause
      ∧ reads 0x00E (r.aflags.setWidth 64) ∧ reads 0x00F (r.afenable.setWidth 64) ∧ reads 0x010 r.ttbase
      ∧ reads 0x011 (BitVec.ofNat 64 s.time) ∧ reads 0x012 (s.me.pwrlim.setWidth 64) ∧ reads 0x013 (r.freezes.setWidth 64)
      ∧ ∀ k : Fin 16, reads (BitVec.ofNat 12 (0x020 + k.val)) (s.me.str.chans[k]).chwp
          ∧ reads (BitVec.ofNat 12 (0x040 + 2 * k.val)) (r.win[k]).lo
          ∧ reads (BitVec.ofNat 12 (0x041 + 2 * k.val)) (r.win[k]).hi)
  ∧ (∀ (a : SReg) (s : State),
      let v := s.sreg a
      let r := { s.me.r with pc := s.after }
      let sets (n : BitVec 12) (q : ScpRegs) : Prop := ∃ t, exec (.sset a n) s = .next t ∧ SetRegs s t q
      (∀ k : Fin 4, sets (BitVec.ofNat 12 (0x008 + k.val)) { r with slk := r.slk.set k (v.setWidth 12) })
      ∧ sets 0x00C { r with trapPc := v &&& 0x00FF_FFFF_FFFF_FFF8 }
      ∧ sets 0x00D { r with trapCause := (v &&& 0xFFFF_FFFF_FFFF_FC00) ||| (r.trapCause &&& 0x3FF) }
      ∧ sets 0x00E { r with aflags := v.setWidth 7 }
      ∧ sets 0x00F { r with afenable := v.setWidth 7 }
      ∧ sets 0x010 { r with ttbase := v &&& 0x00FF_FFFF_FFFF_FFFF })
  ∧ (∀ (k : BitVec 4) (a b : SReg) (s : State),
      let lo := s.sreg a
      let hi := s.sreg b
      let w := s.me.r.win[k.toFin]
      (hi &&& 0x7F = 0 → w.outst = 0 → w.err = false →
        ∃ t, exec (.wset k a b) s = .next t
          ∧ SetRegs s t { s.me.r with
              pc := s.after
              win := s.me.r.win.set k.toFin
                { tacc := lo.extractLsb' 0 11, tsp := lo.extractLsb' 11 6, valid := lo.getLsbD 17, err := false, ecause := 0
                  key := lo.extractLsb' 32 32, rbase := hi.extractLsb' 0 23
                  allow := if hi.extractLsb' 32 10 = 0 then 1 else hi.extractLsb' 32 10, outst := 0 } })
      ∧ (hi &&& 0x7F ≠ 0 → exec (.wset k a b) s = .next (failStrand s s.cur cFMisaligned))
      ∧ (hi &&& 0x7F = 0 → w.outst ≠ 0 → exec (.wset k a b) s = .next s)
      ∧ (hi &&& 0x7F = 0 → w.outst = 0 → w.err = true → exec (.wset k a b) s = .next (failStrand s s.cur w.ecause)))

/-- R144, R147, R154, R301: a fence with no pending store fault, for whose scope no remote write is open and no window holds
an error, completes. With release order it first performs every store in flight, in order; whatever its order, the
stores issued so far stand before the reads of every later copy. Nothing else changes. Which stores to REMOTE pages a
fence waits for is the model's reading (log 50). R301, R77: a fence or release of domain or system scope waits while a
remote write is open, and a sticky window error within its scope is delivered. The model's readings: domain and system
scope alone wait (log 50), device scope includes windows to the own accelerator (log 85), the lowest error is delivered
first (log 54). -/
def Obligations.Fences : Prop :=
  (∀ (order : BitVec 2) (scope : BitVec 3) (s : State),
      s.me.sto.records = [] → scope.toNat < 6 → order ≠ 0 →
      (4 ≤ scope.toNat → remoteOpen s = false) → windowErr s scope = none →
      let rel := order.getLsbD 1
      let u := if rel then s.me.sto.weak.foldl performStore s else s
      ∃ t, exec (.fence order scope) s = .next t
        ∧ t.me = { u.me with
            r := { s.me.r with pc := s.after }, pend := .none
            sto := { s.me.sto with weak := if rel then [] else s.me.sto.weak, fence := s.me.sto.seq } }
        ∧ (∀ i, i ≠ s.cur → t.sp i = u.sp i) ∧ t = { u with sps := t.sps })
  ∧ (∀ (order : BitVec 2) (scope : BitVec 3) (s : State),
      s.me.sto.records = [] → scope.toNat < 6 → order ≠ 0 →
      let u := if order.getLsbD 1 then s.drainWeak else s
      ((4 ≤ scope.toNat ∧ remoteOpen s = true) → exec (.fence order scope) s = .next u)
      ∧ (∀ c, ¬(4 ≤ scope.toNat ∧ remoteOpen s = true) → windowErr s scope = some c →
          exec (.fence order scope) s = .next (failStrand u s.cur c)))

/-- R207, R293: a ckpt whose table's channels are idle, with no pre-emption request and no store pending or unacknowledged,
performs the stores in flight, saves the registers, the windows and the channels in the seat's checkpoint image and goes
on. R31, R207, R293: with a pre-emption request pending, ckpt is a suspension point: the strand stops with its PC at the
next instruction, once its store faults are delivered. While a channel of its table is busy it waits. R31, R379: susp
stops the strand at the next instruction once its stream ops are over and nothing is undelivered; before that it waits. -/
def Obligations.SuspensionPoints : Prop :=
  (∀ (off : BitVec 20) (s : State) (gi n : Nat) (g : Gang) (q : Seat),
      OnSeat s gi n g q →
      chansIdle s.me.str (s.myTable off).chmask = true → reqPending s s.cur = false →
      s.me.sto.records = [] → weakTxns s s.cur = [] →
      let u := s.drainWeak
      ∃ t x, exec (.ckpt off) s = .next t
        ∧ t.me = { u.me with r := { s.me.r with pc := s.after }, pend := .none }
        ∧ t.seatAt gi n = some { q with
            image := some x, ckpc := s.me.r.pc, ckoff := off, noRb := (u.myTable off).norb }
        ∧ x.r = s.me.r ∧ x.smask = (u.myTable off).smask ∧ x.wmask = (u.myTable off).wmask ∧ x.chans = s.me.str.chans
        ∧ x.cnt = q.cnt ∧ x.ckpc = s.me.r.pc ∧ x.ckoff = off
        ∧ (t.ctx s.myCtx).progress = s.time ∧ (∀ i, i ≠ s.cur → t.sp i = u.sp i))
  ∧ (∀ (off : BitVec 20) (s : State),
      (chansIdle s.me.str (s.myTable off).chmask = true → reqPending s s.cur = true →
        (s.me.sto.records = [] →
          ∃ t, exec (.ckpt off) s = .next t
            ∧ StoppedAt s t { s.me with run := .stopped (.ckpt off), r := { s.me.r with pc := s.after }, pend := .none })
        ∧ (s.me.sto.records ≠ [] → exec (.ckpt off) s = .next s.deliver))
      ∧ (chansIdle s.me.str (s.myTable off).chmask = false → exec (.ckpt off) s = .next s))
  ∧ (∀ (s : State),
      (s.me.settled = true → Released s 3 → undelivered s.me.str 0xFFFF = none →
        ∃ t, exec .susp s = .next t
          ∧ StoppedAt s t { s.me with run := .stopped .susp, r := { s.me.r with pc := s.after }, pend := .none })
      ∧ (s.me.settled = false → ∃ t, exec .susp s = .next t ∧ OnlyMe s t ∧ t.me = { s.me with pend := .quiet }))

/-- R24, R30, R220, R383: tend of a seat whose stream side is quiet, with every posted write of the strand acknowledged,
those of the kernels of all its tags too, while another seat of the gang still runs, parks it; that is a progress event
of its context. When a seat of the gang waits in gbar, every seat that waits there ends FAILED with GBAR_PARKED_SEAT,
and the task with it. R24, R55, R383: tend of the last seat ends the task: its gang is no more, every seat's status is
DONE, its SPs are idle and the task of a GRAPH launch is DONE. -/
def Obligations.TaskEnd : Prop :=
  (∀ (s : State) (gi n m : Nat) (g : Gang) (q o : Seat),
      OnSeat s gi n g q → s.me.quiet = true → Released (coverTags s s.cur (BitVec.allOnes 32)) 5 →
      undelivered s.me.str 0xFFFF = none → q.sp = some s.cur → (g.seats.filterMap Seat.sp).Nodup →
      g.seats[m]? = some o → m ≠ n → seatParked s o = false →
      let waits (x : Seat) : Prop := ∃ i, x.sp = some i ∧ i ≠ s.cur ∧ ((s.sp i).pend = .gbar ∨ (s.sp i).run = .stopped .gbar)
      ((∀ x ∈ g.seats, ¬ waits x) →
        ∃ t, exec .tend s = .next t ∧ t.me = { s.me with run := .parked, pend := .none }
          ∧ (∀ i, i ≠ s.cur → t.sp i = s.sp i) ∧ SameMem s t ∧ t.launches = s.launches
          ∧ (∀ k, t.seatAt gi k = s.seatAt gi k) ∧ (t.ctx s.myCtx).progress = s.time)
      ∧ ((∃ x ∈ g.seats, waits x) →
        ∃ t h, exec .tend s = .next t ∧ t.gangs[gi]? = some h ∧ h.live = false
          ∧ ∀ (k : Nat) x, g.seats[k]? = some x → ∃ y : Seat, h.seats[k]? = some y ∧ y.status = .failed ∧ y.sp = none
              ∧ (waits x → y.cause = cGbarParkedSeat)))
  ∧ (∀ (s : State) (gi n : Nat) (g : Gang) (q : Seat),
      OnSeat s gi n g q → s.me.quiet = true → Released (coverTags s s.cur (BitVec.allOnes 32)) 5 →
      undelivered s.me.str 0xFFFF = none → (∀ m o, g.seats[m]? = some o → m ≠ n → seatParked s o = true) →
      ∃ t h, exec .tend s = .next t ∧ t.gangs[gi]? = some h
        ∧ h.live = false ∧ h.seats = g.seats.map (fun x => { x with status := .done, sp := none })
        ∧ (∀ x ∈ g.seats, ∀ i, x.sp = some i → (t.sp i).run = .idle)
        ∧ (∀ l k, s.launches[g.launch]? = some l → l.r.kind = 1 → l.tasks[g.tindex.toNat]? = some k →
            ∃ l' k', t.launches[g.launch]? = some l' ∧ l'.tasks[g.tindex.toNat]? = some k' ∧ k'.status = .done))

/-- R30, R31, R209, R302: gbar of a seat that is behind the gang's generation counts up and goes on; of a seat whose gang
has not all arrived, it waits with its arrival recorded, or stops there when a pre-emption request is pending; the last
to arrive moves the generation on, and it and every other seat go on after their gbar: a seat that had stopped there
runs again, and one that was resumed there need not execute it again. With a seat of the gang PARKED, every waiting seat
ends FAILED with GBAR_PARKED_SEAT. -/
def Obligations.GangBarrier : Prop :=
  ∀ (s : State) (gi n : Nat) (g : Gang) (q : Seat),
    OnSeat s gi n g q → Released s 1 →
    let arrived : Bool := g.seats.zipIdx.all fun x => x.2 == n || x.1.cnt = g.gen + 1
    let parked : Prop := ∃ (m : Nat) (o : Seat), g.seats[m]? = some o ∧ seatParked s o = true
    (q.cnt.toNat < g.gen.toNat →
      ∃ t, exec .gbar s = .next t ∧ t.seatAt gi n = some { q with cnt := q.cnt + 1 }
        ∧ t.me = { s.me with r := { s.me.r with pc := s.after }, pend := .none } ∧ SameMem s t)
    ∧ (¬ q.cnt.toNat < g.gen.toNat → arrived = true → (g.seats.filterMap Seat.sp).Nodup → q.sp = some s.cur →
      ∃ t, exec .gbar s = .next t ∧ t.seatAt gi n = some { q with cnt := g.gen + 1 }
        ∧ (t.gangs[gi]?).map Gang.gen = some (g.gen + 1)
        ∧ t.me = { s.me with r := { s.me.r with pc := s.after }, pend := .none } ∧ SameMem s t
        ∧ ∀ o ∈ g.seats, ∀ i, o.sp = some i → i ≠ s.cur →
            t.sp i = { s.sp i with
              r := { (s.sp i).r with pc := pc56 ((s.sp i).r.pc + 8) }
              pend := (if (s.sp i).pend = .gbar then .none else (s.sp i).pend)
              run := (if (s.sp i).run = .stopped .gbar then .running else (s.sp i).run) })
    ∧ (¬ q.cnt.toNat < g.gen.toNat → arrived = false → ¬ parked → reqPending s s.cur = false →
      ∃ t, exec .gbar s = .next t ∧ t.seatAt gi n = some { q with cnt := g.gen + 1 }
        ∧ t.me = { s.me with pend := .gbar } ∧ SameMem s t)
    ∧ (¬ q.cnt.toNat < g.gen.toNat → arrived = false → ¬ parked → reqPending s s.cur = true →
      ∃ t, exec .gbar s = .next t ∧ t.seatAt gi n = some { q with cnt := g.gen + 1 }
        ∧ t.me = { s.me with run := .stopped .gbar, pend := .none } ∧ SameMem s t)
    ∧ (¬ q.cnt.toNat < g.gen.toNat → arrived = false → parked → q.sp = some s.cur →
      ∃ t h, exec .gbar s = .next t ∧ t.gangs[gi]? = some h ∧ h.live = false
        ∧ (∀ (k : Nat) (x : Seat), h.seats[k]? = some x → x.status = .failed)
        ∧ ∀ (k : Nat) (x : Seat), g.seats[k]? = some x → (k = n ∨ ∃ i, x.sp = some i ∧ i ≠ s.cur ∧ (s.sp i).pend = .gbar) →
            ∃ y : Seat, h.seats[k]? = some y ∧ y.cause = cGbarParkedSeat)

/-- R62, R220, R385: the first trig of a seat marks it and is a progress event; a later one has no effect. R31, R62, R386:
twait returns at once when every early-start predecessor is triggered, and twait.id when the ID is 0 or names no live
launch, or the launch is final; the result is LAUNCH_PRED_FAILED (0x283) when an awaited launch has a failed task, else
0. A twait that waits stops at itself when a pre-emption request is pending. R381, R232: the service NULL returns 0 in
s8, and an unknown service the cause EQX_QPACKET_BAD with VALUE 1. STATE_READ of the own context's state (class 6)
writes its first s12 bytes, 32 at most, at the address in s11, and returns their number; a class but 6 and 11 gives
VALUE 2. Every other register is unchanged; the stores issued before the svc stand before the reads of later copies, as
after a fence.acqrel.device, and the call is noted for a work record (R238, log 19). That the result stands in s8 is the
model's reading (log 51), and the four values of a context's state in this order, cut at s12, are log 22. -/
def Obligations.TriggersAndServices : Prop :=
  (∀ (s : State) (gi n : Nat) (g : Gang) (q : Seat),
      OnSeat s gi n g q →
      (q.trig = false → Released s 3 →
        ∃ t, exec .trig s = .next t ∧ t.seatAt gi n = some { q with trig := true }
          ∧ (t.ctx s.myCtx).progress = s.time
          ∧ t.me = { s.me with r := { s.me.r with pc := s.after }, pend := .none } ∧ SameMem s t)
      ∧ (q.trig = true → ∃ t, exec .trig s = .next t ∧ WentTo s t s.after))
  ∧ (∀ (d a : SReg) (s : State),
      (s.earlyPreds.all (isTriggered s) = true →
        ∃ t, exec (.twait d) s = .next t ∧ Wrote s t d (if s.earlyPreds.any (isFailed s) then 0x283 else 0))
      ∧ (s.earlyPreds.all (isTriggered s) = false →
        (reqPending s s.cur = false → exec (.twait d) s = .next s)
        ∧ (reqPending s s.cur = true → s.me.sto.records = [] →
          ∃ t, exec (.twait d) s = .next t ∧ StoppedAt s t { s.me with run := .stopped (.twait none), pend := .none }))
      ∧ ((∀ k, s.me.pend ≠ .launch k) → (s.sreg a).setWidth 32 = (0 : W32) →
        ∃ t, exec (.twaitId d a) s = .next t ∧ Wrote s t d 0)
      ∧ ((∀ k, s.me.pend ≠ .launch k) → liveLaunch s s.myCtx ((s.sreg a).setWidth 32) = none →
        ∃ t, exec (.twaitId d a) s = .next t ∧ Wrote s t d 0)
      ∧ (∀ k, (s.me.pend = .launch k
            ∨ ((∀ k, s.me.pend ≠ .launch k) ∧ (s.sreg a).setWidth 32 ≠ (0 : W32)
                ∧ liveLaunch s s.myCtx ((s.sreg a).setWidth 32) = some k)) →
          (launchFinal s k = true →
            ∃ t, exec (.twaitId d a) s = .next t ∧ Wrote s t d (if isFailed s k then 0x283 else 0))
          ∧ (launchFinal s k = false → reqPending s s.cur = false →
            ∃ t, exec (.twaitId d a) s = .next t ∧ OnlyMe s t ∧ t.me = { s.me with pend := .launch k })))
  ∧ (∀ (code : BitVec 20) (s : State) (lf : Leaf),
      Released s 3 →
      let c := s.ctx s.myCtx
      let data := leBytes 8 c.slkctl.toNat ++ leBytes 8 c.slkcnt.toNat ++ leBytes 8 c.ctxwd.toNat ++ leBytes 8 c.ordmode.toNat
      let n := min 32 (s.sreg 12).toNat
      let va := (s.sreg 11).toNat
      let noted (d : Dev) : List Cmd := d.faults ++ [⟨s.myCtx, 0, 0, s.me.r.pc, cSvcCall.setWidth 64, 0, 0⟩]
      let after (t : State) (v : W64) : Prop := (∀ i, i ≠ s.cur → t.sp i = s.sp i)
        ∧ t.me = { s.me with
            r := { (s.me.r.put 8 v) with pc := s.after }, pend := .none, sto := { s.me.sto with fence := s.me.sto.seq } }
      let answers (v : W64) : Prop := ∃ t, exec (.svc code) s = .next t ∧ after t v
        ∧ t = { s with sps := t.sps, dev := { s.dev with faults := noted s.dev } }
      (code = 0 → answers 0)
      ∧ (code ≠ 0 → code ≠ 1 → ∃ v, answers v ∧ v.extractLsb' 0 10 = cEqxQpacketBad ∧ v.extractLsb' 16 48 = 1)
      ∧ (code = 1 → s.sreg 9 ≠ 6 → s.sreg 9 ≠ 11 →
          ∃ v, answers v ∧ v.extractLsb' 0 10 = cEqxQpacketBad ∧ v.extractLsb' 16 48 = 2)
      ∧ (code = 1 → s.sreg 9 = 6 → (s.sreg 10).toNat = s.myCtx.val → c.alive = true →
          translate s .none s.myCtx va .write .equinox = .ok lf → va % 4096 + n ≤ 4096 →
          ∃ t, exec (.svc code) s = .next t ∧ after t (BitVec.ofNat 64 (n * 2 ^ 16)) ∧ t.dev.faults = noted s.dev
            ∧ t.physRead (lf.pa va) n = data.take n ∧ SameMemBut s t (lf.pa va) n))

/-! ## SCP: memory -/

/-- R315 to R318, R141, R165: ldg from a local page reads 1, 2, 4 or 8 aligned bytes, zero-extended, after the strand's own
stores in flight to their units; the TLBs may keep the translation, the strand's stream counts one packet, and nothing
else changes. While a write of the strand that loops back to those units is open, it waits. A load from a UN page leaves
those stores in flight and sees some of them, in their order (R141; which, log 106 leaves free). R140, R154: a load that
reads the 8 bytes of the strand's one store in flight returns what that store wrote, unless the page is UN (R141). R170,
R175, R317: ldg from a REMOTE page sends a READ for its bytes and waits for the answer; it completes with the bytes of
the answer. -/
def Obligations.Loads : Prop :=
  (∀ (m : MemMod) (d a : SReg) (imm : BitVec 20) (s : State) (lf : Leaf),
      let addr := (s.sreg a + imm.signExtend 64).toNat
      let n := 2 ^ m.size.toNat
      let u := s.drainUnits (lf.pa addr) n
      let sees (w t : State) (b : List Byte) : Prop := Loaded w t d (BitVec.ofNat 64 (leNat b)) (w.pkt m.urg)
      WellFormed (.ldg m d a imm) = true → addr % n = 0 → s.me.pend = .none →
      s.me.sto.records = [] → LocalPage s addr n .read .scp lf →
      (lf.ord = 2 → ∃ (t : State) (l : List WeakStore), exec (.ldg m d a imm) s = .next t ∧ l.Sublist (s.me.sto.weak.filter fun w => w.f = none)
        ∧ sees s t (l.foldl (overStore (lf.pa addr)) (s.physRead (lf.pa addr) n)))
      ∧ (lf.ord ≠ 2 →
        (loopBusy s none none (lf.pa addr) n = false →
          ∃ t, exec (.ldg m d a imm) s = .next t ∧ sees u t (u.physRead (lf.pa addr) n))
        ∧ (loopBusy s none none (lf.pa addr) n = true →
            exec (.ldg m d a imm) s = .next (fillTlb s (.sp s.cur) s.myCtx lf))))
  ∧ (∀ (m : MemMod) (d a : SReg) (imm : BitVec 20) (s : State) (lf : Leaf) (w : WeakStore),
      let addr := (s.sreg a + imm.signExtend 64).toNat
      WellFormed (.ldg m d a imm) = true → m.size = 3 → addr % 8 = 0 → s.me.pend = .none →
      s.me.sto.records = [] → s.me.sto.weak = [w] → w.f = none → w.size = 3 → w.pa = lf.pa addr → lf.ord ≠ 2 →
      FreePage s addr 8 .read .scp lf →
      ∃ t, exec (.ldg m d a imm) s = .next t ∧ (d ≠ 0 → t.sreg d = w.data) ∧ t.me.r.pc = s.after
        ∧ t.physRead w.pa 8 = leBytes 8 w.data.toNat)
  ∧ (∀ (m : MemMod) (d a : SReg) (imm : BitVec 20) (s : State) (lf : Leaf) (tag : BitVec 12) (b : List Byte),
      let addr := (s.sreg a + imm.signExtend 64).toNat
      let n := 2 ^ m.size.toNat
      WellFormed (.ldg m d a imm) = true → addr % n = 0 → s.me.sto.records = [] →
      translate s (.sp s.cur) s.myCtx addr .read .scp = .ok lf → lf.kind = 1 →
      (s.me.pend = .remote tag (some (.data b)) [] → b.length = n →
        ∃ t, exec (.ldg m d a imm) s = .next t ∧ Loaded s t d (BitVec.ofNat 64 (leNat b)) s.dev)
      ∧ (s.me.pend = .none → (lf.remote addr).2.2 % 256 + n ≤ 256 →
          remoteBusy s s.cur (lf.remote addr).1 (lf.remote addr).2.2 n = false → LoopFree s (lf.remote addr).1 → ∀ u,
          sendReq (fillTlb s (.sp s.cur) s.myCtx lf) (.scp s.cur) s.myCtx (ssidScp s.cur) tREAD 0 (lf.remote addr).1
              (lf.remote addr).2.1 (lf.remote addr).2.2 n s.me.r.slk[m.urg.toFin] false [] = .ok tag u →
          exec (.ldg m d a imm) s = .next (u.modMe fun p => { p with pend := .remote tag none [] })))

/-- R66, R68, R70, R76, R316, R317: ldf from a full line of the SRF, own or of a seat of the gang, reads its bytes, after
the strand's own stores in flight there (from another SP's line with a packet, R165), and waits while a write of the
strand that loops back to them is open; on an empty line it waits; through a window it completes with the bytes of the
answer. R68, R88, R374 to R376: stf to the SRF, own or of a seat of the gang, goes into flight there. Through a window
it sends a FEWR of its bytes to the target SRF and counts one outstanding write; at the window's allowance it waits.
R68, R163, R283 to R285: an AMO on a full line of the SRF likewise, after the strand's own stores in flight there; on an
empty line it waits; through a window it completes with the old bytes of the answer. -/
def Obligations.SrfAccesses : Prop :=
  (∀ (m : MemMod) (d a : SReg) (imm : BitVec 20) (s : State),
      let addr := (s.sreg a + imm.signExtend 64).toNat
      let n := 2 ^ m.size.toNat
      WellFormed (.ldf m d a imm) = true → addr < 2 ^ 32 → addr % n = 0 → s.me.sto.records.length ≠ 16 →
      (∀ q off, s.fDecode s.cur addr = .srf q off → (s.sp q).full off = true →
        let u := (s.chipSeat m.urg q).drainLine q off n
        (loopBusy s none (some q) off n = false →
          ∃ t, exec (.ldf m d a imm) s = .next t ∧ Wrote u t d (BitVec.ofNat 64 (leNat ((u.sp q).fBytes off n))))
        ∧ (loopBusy s none (some q) off n = true → exec (.ldf m d a imm) s = .next s))
      ∧ (∀ q off, s.fDecode s.cur addr = .srf q off → (s.sp q).full off = false → s.me.pend = .none →
        ∃ t, exec (.ldf m d a imm) s = .next t ∧ OnlyMe s t
          ∧ t.me = { s.me with pend := .line s.time (feLimit s (dieOf s.cur)) })
      ∧ (∀ k off tag b, s.fDecode s.cur addr = .window k off → s.me.pend = .remote tag (some (.data b)) [] →
        ∃ t, exec (.ldf m d a imm) s = .next t ∧ Wrote s t d (BitVec.ofNat 64 (leNat b))))
  ∧ (∀ (m : MemMod) (a b : SReg) (imm : BitVec 20) (s : State),
      let addr := (s.sreg a + imm.signExtend 64).toNat
      let n := 2 ^ m.size.toNat
      WellFormed (.stf m a b imm) = true → addr < 2 ^ 32 → addr % n = 0 → s.me.sto.records.length ≠ 16 →
      (m.order = 2 → Released s m.scope) →
      (∀ q off, s.fDecode s.cur addr = .srf q off → loopBusy s none (some q) off n = false →
        ∃ t, exec (.stf m a b imm) s = .next t
          ∧ StoreFlies s t ⟨some q, off, false, s.sreg a + imm.signExtend 64, s.sreg b, m.size, s.me.sto.seq + 1⟩
              (s.chipSeat m.urg q).dev)
      ∧ (∀ k off, s.fDecode s.cur addr = .window k off →
        let w := s.me.r.win[k]
        (w.outst = w.allow → exec (.stf m a b imm) s = .next s)
        ∧ (w.outst ≠ w.allow → LoopFree s w.tacc → chooseStation s true (ssidWindow s.cur k) w.tacc (winAddr w off) ≠ none →
            freeTag ((s.dev.txns.filter fun t => t.h.ssid = ssidWindow s.cur k).map fun t => t.h.tag) 0 4096 ≠ none →
            ∃ t x, exec (.stf m a b imm) s = .next t ∧ SameMem s t ∧ (∀ i, i ≠ s.cur → t.sp i = s.sp i)
              ∧ t.me.r = { s.me.r with pc := s.after, win := s.me.r.win.set k { w with outst := w.outst + 1 } }
              ∧ t.dev.txns = s.dev.txns ++ [x] ∧ x.who = .window s.cur k none
              ∧ x.h.typ = tFEWR ∧ x.h.ord = true ∧ x.h.dst = w.tacc ∧ x.h.key = w.key
              ∧ x.h.addr.toNat = winAddr w off % 2 ^ 57 ∧ x.h.len.toNat + 1 = n)))
  ∧ (∀ (m : MemMod) (code : BitVec 4) (d a b c : SReg) (s : State),
      let addr := (s.sreg a).toNat
      let n := 2 ^ m.size.toNat
      WellFormed (.amof m code d a b c) = true → addr < 2 ^ 32 → addr % n = 0 → s.me.sto.records.length ≠ 16 →
      (2 ≤ m.order.toNat → Released s m.scope) →
      (∀ q off, s.fDecode s.cur addr = .srf q off → (s.sp q).full off = true →
        loopBusy s none (some q) off n = false → let u := (s.chipSeat m.urg q).drainLine q off n
        let old := leNat ((u.sp q).fBytes off n)
        ∃ t, exec (.amof m code d a b c) s = .next t
          ∧ leNat ((t.sp q).fBytes off n)
              = amoNew code (8 * n) old ((s.sreg b).toNat % 256 ^ n) ((s.sreg c).toNat % 256 ^ n) % 256 ^ n
          ∧ (∀ f, (f < off ∨ off + n ≤ f) → (t.sp q).fByte f = (u.sp q).fByte f)
          ∧ (t.sp q).fe = (s.sp q).fe ∧ SameMem u t ∧ (∀ i, i ≠ q → i ≠ s.cur → t.sp i = s.sp i)
          ∧ (d ≠ 0 → t.sreg d = BitVec.ofNat 64 old) ∧ (∀ j, j ≠ d → t.sreg j = s.sreg j) ∧ t.me.r.pc = s.after)
      ∧ (∀ q off, s.fDecode s.cur addr = .srf q off → (s.sp q).full off = false → s.me.pend = .none →
        ∃ t, exec (.amof m code d a b c) s = .next t ∧ OnlyMe s t
          ∧ t.me = { s.me with pend := .line s.time (feLimit s (dieOf s.cur)) })
      ∧ (∀ k off tag o, s.fDecode s.cur addr = .window k off → s.me.pend = .remote tag (some (.data o)) [] →
        ∃ t, exec (.amof m code d a b c) s = .next t ∧ Wrote s t d (BitVec.ofNat 64 (leNat o))))

/-- R374 to R377: a store to a local page with release order, or on an SO page, writes the low bytes of s[B] at the
translated address, after the strand's own stores in flight to the unit (with release order, after all of them), and no
other byte of memory. It waits for open writes of the strand that loop back to it. R154, R155, R377: a plain store to an
RC or UN page issues without being performed: it joins the stores in flight, and memory is as before. R151, R161, R164,
R174, R175, R376, R377: stg to a REMOTE page whose bytes lie in one 256-byte block of ADDR. A plain store to an RC or UN
page posts a PWR and goes on. With release order, or on an SO page, it sends an NPWR, waits, and goes on with the
answer. R78, R79, R376: an 8-byte stg to an APERTURE page, at a multiple of 4,096, starts a copy without a tag in the
channel of its place: its data names the template (bits 15 to 0), the information (31 to 16) and the parameter (63 to
32). The template is read first, the copy takes its urgency class (0 when the index is above NENT, where nothing is
read: log 105), and its destination lines become empty as at scopy. Another offset is APERTURE_MISUSE. R68, R140, R154:
a store in flight is performed: its bytes stand at its place, every other byte of memory and of the SRF stays as it was,
and no full/empty bit changes. R154, R155, R174, R377: a plain store whose page is not present, whose entry is bad, or
whose RC or UN page does not admit it does not trap: it leaves a record in the store-fault buffer, and the strand goes
on. Whether REMOTE_MAP_INVALID is precise (R174) is a free value (log 104). R154, R156, R198, R425: the first
instruction of a strand that must find its stores performed delivers the records: when one of them cannot be repaired
the task fails with the cause of the one of lowest SEQ; when one waits for a HOST page the strand stops FAULTED for it;
else they are performed again in order of SEQ by STORE_FAULT_REPLAY, and the strand stays at the instruction meanwhile.
That the strand is descheduled for a HOST page, and stays resident otherwise, is the model's choice where R198 leaves it
to Equinox (log 82). -/
def Obligations.Stores : Prop :=
  (∀ (m : MemMod) (a b : SReg) (imm : BitVec 20) (s : State) (lf : Leaf),
      let addr := (s.sreg a + imm.signExtend 64).toNat
      let n := 2 ^ m.size.toNat
      let u := if m.order = 2 then s.drainWeak else s
      WellFormed (.stg m a b imm) = true → addr % n = 0 → s.me.sto.records = [] →
      (m.order = 2 → (4 ≤ m.scope.toNat → remoteOpen s = false) ∧ windowErr s m.scope = none) →
      translate u (.sp s.cur) s.myCtx addr .write (if m.size = 3 then .scpStg8 else .scp) = .ok lf →
      (lf.kind = 0 ∨ lf.kind = 3) → (m.order ≠ 0 ∨ lf.ord = 0) →
      (loopBusy u none none (lf.pa addr) n = false →
        ∃ t, exec (.stg m a b imm) s = .next t
          ∧ Stored (u.drainUnits (lf.pa addr) n) t (lf.pa addr) (leBytes n (s.sreg b).toNat) ((u.drainUnits (lf.pa addr) n).pkt m.urg))
      ∧ (loopBusy u none none (lf.pa addr) n = true →
          exec (.stg m a b imm) s = .next (fillTlb u (.sp s.cur) s.myCtx lf)))
  ∧ (∀ (m : MemMod) (a b : SReg) (imm : BitVec 20) (s : State) (lf : Leaf),
      let addr := (s.sreg a + imm.signExtend 64).toNat
      let n := 2 ^ m.size.toNat
      WellFormed (.stg m a b imm) = true → addr % n = 0 → m.order = 0 → s.me.sto.records = [] → storeCount s s.cur < 16 →
      translate s (.sp s.cur) s.myCtx addr .write (if m.size = 3 then .scpStg8 else .scp) = .ok lf →
      (lf.kind = 0 ∨ lf.kind = 3) → lf.ord ≠ 0 → (lf.ord ≠ 2 → loopBusy s none none (lf.pa addr) n = false) →
      ∃ t, exec (.stg m a b imm) s = .next t
        ∧ StoreFlies s t ⟨none, lf.pa addr, lf.ord = 2, s.sreg a + imm.signExtend 64, s.sreg b, m.size, s.me.sto.seq + 1⟩
            (s.pkt m.urg))
  ∧ (∀ (m : MemMod) (a b : SReg) (imm : BitVec 20) (s : State) (lf : Leaf) (tag : BitVec 12) (u : State),
      let va := s.sreg a + imm.signExtend 64
      let addr := va.toNat
      let n := 2 ^ m.size.toNat
      let d := leBytes n (s.sreg b).toNat
      let r := lf.remote addr
      let f := fillTlb s (.sp s.cur) s.myCtx lf
      let count (t : State) : State := t.modMe fun p => { p with sto := { p.sto with seq := p.sto.seq + 1 } }
      let sent (t : State) (w : Issuer) (typ : BitVec 6) : Sent := sendReq t w s.myCtx (ssidScp s.cur) typ 0 r.1 r.2.1 r.2.2 n
        s.me.r.slk[m.urg.toFin] false d
      WellFormed (.stg m a b imm) = true → addr % n = 0 → s.me.sto.records = [] →
      translate s (.sp s.cur) s.myCtx addr .write (if m.size = 3 then .scpStg8 else .scp) = .ok lf → lf.kind = 1 →
      (m.order = 0 → lf.ord ≠ 0 → storeCount s s.cur < 16 → r.2.2 % 256 + n ≤ 256 →
        remoteBusy s s.cur r.1 r.2.2 n = false → LoopFree s r.1 →
        sent (count f) (.weak s.cur ⟨BitVec.ofNat 64 (addr % 2 ^ 56), BitVec.ofNat 64 ((s.sreg b).toNat % 256 ^ n), m.size, 0,
            s.me.sto.seq + 1⟩) tPWR = .ok tag u →
        exec (.stg m a b imm) s
          = .next (u.modMe fun p => { p with r := { p.r with pc := pc56 (p.r.pc + 8) }, pend := .none }))
      ∧ (((m.order = 2 ∧ Released s m.scope) ∨ (m.order = 0 ∧ lf.ord = 0)) →
        (s.me.pend = .none → r.2.2 % 256 + n ≤ 256 → remoteBusy s s.cur r.1 r.2.2 n = false → LoopFree s r.1 →
          sent f (.scp s.cur) tNPWR = .ok tag u →
          exec (.stg m a b imm) s = .next (u.modMe fun p => { p with pend := .remote tag none d }))
        ∧ (∀ x g, s.me.pend = .remote tag (some (.data x)) g → n ≤ g.length →
          exec (.stg m a b imm) s
            = .next ((count f).modMe fun p => { p with r := { p.r with pc := pc56 (p.r.pc + 8) }, pend := .none }))))
  ∧ (∀ (m : MemMod) (a b : SReg) (imm : BitVec 20) (s : State) (lf lt : Leaf),
      let addr := (s.sreg a + imm.signExtend 64).toNat
      let v := s.sreg b
      let ti : BitVec 16 := v.extractLsb' 0 16
      let tb := s.me.r.ttbase
      let ch : ChId := Fin.ofNat 16 (addr % 65536 / 4096)
      let x := parseTemplate (s.physRead (lt.pa (templateAddr tb ti)) 64)
      let f := fillTlb s (.sp s.cur) s.myCtx lf
      let urg : BitVec 2 := if templateIn tb ti then x.slkc else 0
      let fe (t : State) : List (BitVec 65536) := t.sps.toList.map Sp.fe
      WellFormed (.stg m a b imm) = true → m.size = 3 → addr % 8 = 0 → s.me.sto.records = [] → s.me.sto.weak = [] →
      weakTxns s s.cur = [] → s.me.pend = .none → (m.order = 2 → Released s m.scope) →
      translate s (.sp s.cur) s.myCtx addr .write .scpStg8 = .ok lf → lf.kind = 2 →
      (addr % 4096 ≠ 0 → exec (.stg m a b imm) s = .next (f.faultAt cApertureMisuse addr))
      ∧ (addr % 4096 = 0 → (templateIn tb ti = true → FreePage f (templateAddr tb ti) 64 .read .scp lt) →
        ∃ t, exec (.stg m a b imm) s = .next t ∧ SameMem s t
          ∧ t.me.str = { s.me.str with
              num := s.me.str.num + 1
              chans := s.me.str.chans.set ch { s.me.str.chans[ch] with
                queue := s.me.str.chans[ch].queue ++ [⟨s.me.str.num, none, 0, urg, s.me.r.slk[urg.toFin],
                  .copy ti (v.extractLsb' 32 32) tb ch (v.extractLsb' 16 16)⟩] } }
          ∧ t.me.r = { s.me.r with pc := s.after } ∧ t.me.sto = { s.me.sto with seq := s.me.sto.seq + 1 }
          ∧ fe t = fe (if templateIn tb ti then emptyDest s s.cur x else s)
          ∧ (∀ q, q ≠ s.cur → t.sp q = { s.sp q with fe := (t.sp q).fe })))
  ∧ (∀ (w : WeakStore) (s : State),
      let n := 2 ^ w.size.toNat
      let d := leBytes n w.data.toNat
      let t := performStore s w
      (w.f = none → t.physRead w.pa n = d ∧ SameMemBut s t w.pa n ∧ t.sps = s.sps)
      ∧ (∀ q, w.f = some q → (t.sp q).fBytes w.pa n = d ∧ (∀ f, (f < w.pa ∨ w.pa + n ≤ f) → (t.sp q).fByte f = (s.sp q).fByte f)
          ∧ t.sp q = { s.sp q with srf := (t.sp q).srf } ∧ (∀ i, i ≠ q → t.sp i = s.sp i) ∧ t = { s with sps := t.sps }))
  ∧ (∀ (m : MemMod) (a b : SReg) (imm : BitVec 20) (s : State) (c : Cause) (lf : Leaf),
      let addr := (s.sreg a + imm.signExtend 64).toNat
      let n := 2 ^ m.size.toNat
      WellFormed (.stg m a b imm) = true → addr % n = 0 → m.order = 0 → s.me.sto.records = [] → storeCount s s.cur < 16 →
      ((lookup s (.sp s.cur) s.myCtx addr = .error c ∧ (c = cVaRange ∨ c = cPageNotPresent ∨ c = cPteBad))
        ∨ (lookup s (.sp s.cur) s.myCtx addr = .ok lf ∧ lf.ord ≠ 0 ∧ lf.kind ≠ 2
            ∧ checkUse s lf .write (if m.size = 3 then .scpStg8 else .scp) = some c ∧ mapFaultPrecise s.tick c = false)) →
      ∃ t, exec (.stg m a b imm) s = .next t
        ∧ FaultNoted s t ⟨BitVec.ofNat 64 (addr % 2 ^ 56), BitVec.ofNat 64 ((s.sreg b).toNat % 256 ^ n), m.size, c,
            s.me.sto.seq + 1⟩)
  ∧ (∀ (order : BitVec 2) (scope : BitVec 3) (s : State),
      let l := bySeq s.me.sto.records
      let firstOf (x : Fix) : Option SfRecord := l.find? fun r => recordFix s s.myCtx r = x
      scope.toNat < 6 → order ≠ 0 → s.me.sto.records ≠ [] →
      (∀ r, firstOf .no = some r → exec (.fence order scope) s = .next (failStrand s s.cur r.cause))
      ∧ (firstOf .no = none → ∀ r, firstOf .pageIn = some r →
          ∃ t, exec (.fence order scope) s = .next t ∧ SameMem s t ∧ (∀ i, i ≠ s.cur → t.sp i = s.sp i)
            ∧ t.me = { s.me with run := .stopped (.fault r.cause), pend := .repair r.cause r.va
                                 sto := { s.me.sto with delivered := true } })
      ∧ (firstOf .no = none → firstOf .pageIn = none →
          ∃ t, exec (.fence order scope) s = .next t ∧ OnlyMe s t
            ∧ t.me = { s.me with sto := { s.me.sto with delivered := true } }))

/-- R134, R148, R283 to R285: an AMO on a local page writes back the operation's result in one step and returns the old
bytes, zero-extended. R161, R163, R174, R175, R283 to R285: amog on a REMOTE page sends an ATOM with its operands and
waits; it completes with the old bytes of the answer. R134, R148, R163, R284: the operations of the AMO codes on units
of `w` bits; fadd is one FP32 addition to nearest, without flags. -/
def Obligations.Atomics : Prop :=
  (∀ (m : MemMod) (code : BitVec 4) (d a b c : SReg) (s : State) (lf : Leaf),
      let addr := (s.sreg a).toNat
      let n := 2 ^ m.size.toNat
      let old := leNat (s.physRead (lf.pa addr) n)
      WellFormed (.amog m code d a b c) = true → addr % n = 0 → s.me.sto.records = [] → s.me.sto.weak = [] →
      (2 ≤ m.order.toNat → Released s m.scope) → FreePage s addr n .amo .scp lf →
      ∃ t, exec (.amog m code d a b c) s = .next t
        ∧ leNat (t.physRead (lf.pa addr) n)
            = amoNew code (8 * n) old ((s.sreg b).toNat % 256 ^ n) ((s.sreg c).toNat % 256 ^ n) % 256 ^ n
        ∧ SameMemBut s t (lf.pa addr) n
        ∧ (d ≠ 0 → t.sreg d = BitVec.ofNat 64 old) ∧ (∀ j, j ≠ d → t.sreg j = s.sreg j)
        ∧ t.me = { s.me with r := { s.me.r with s := t.me.r.s, pc := s.after }, pend := .none, tlb := t.me.tlb }
        ∧ (∀ i, i ≠ s.cur → t.sp i = s.sp i))
  ∧ (∀ (m : MemMod) (code : BitVec 4) (d a b c : SReg) (s : State) (lf : Leaf) (tag : BitVec 12) (u : State) (o : List Byte),
      let addr := (s.sreg a).toNat
      let n := 2 ^ m.size.toNat
      let r := lf.remote addr
      let data := leBytes n (s.sreg b).toNat ++ (if code = 9 then leBytes n (s.sreg c).toNat else [])
      WellFormed (.amog m code d a b c) = true → addr % n = 0 → s.me.sto.records = [] →
      (2 ≤ m.order.toNat → Released s m.scope) →
      translate s (.sp s.cur) s.myCtx addr .amo .scp = .ok lf → lf.kind = 1 →
      (s.me.pend = .none → remoteBusy s s.cur r.1 r.2.2 n = false → LoopFree s r.1 →
        sendReq (fillTlb s (.sp s.cur) s.myCtx lf) (.scp s.cur) s.myCtx (ssidScp s.cur) tATOM code r.1 r.2.1 r.2.2 n
            s.me.r.slk[m.urg.toFin] false data = .ok tag u →
        exec (.amog m code d a b c) s = .next (u.modMe fun p => { p with pend := .remote tag none [] }))
      ∧ (s.me.pend = .remote tag (some (.data o)) [] →
        ∃ t, exec (.amog m code d a b c) s = .next t ∧ Loaded s t d (BitVec.ofNat 64 (leNat o)) s.dev))
  ∧ (∀ (w old opnd new : Nat), (w = 32 ∨ w = 64) → old < 2 ^ w → opnd < 2 ^ w →
      amoNew 0 w old opnd new = (old + opnd) % 2 ^ w
      ∧ (intVal w true (amoNew 1 w old opnd new) = Min.min (intVal w true old) (intVal w true opnd))
      ∧ (intVal w true (amoNew 2 w old opnd new) = Max.max (intVal w true old) (intVal w true opnd))
      ∧ amoNew 3 w old opnd new = Min.min old opnd ∧ amoNew 4 w old opnd new = Max.max old opnd
      ∧ amoNew 5 w old opnd new = old &&& opnd ∧ amoNew 6 w old opnd new = old ||| opnd
      ∧ amoNew 7 w old opnd new = old ^^^ opnd ∧ amoNew 8 w old opnd new = opnd
      ∧ (old = opnd → amoNew 9 w old opnd new = new) ∧ (old ≠ opnd → amoNew 9 w old opnd new = old)
      ∧ (w = 32 → fp32.finite old → fp32.finite opnd → fp32.fits (fp32.val old + fp32.val opnd) →
          fp32.Rounds .rne (fp32.val old + fp32.val opnd) (amoNew 10 w old opnd new)))

/-- R68, R203, R284, R316, R375: a misaligned access, an F address past 32 bits or in a hole, and a page that does not admit
the access, fault precisely: nothing is read or written by the instruction. R198, R203, R205, R425: what a strand's
fault at an address does. A page of the host that is not present stops the strand FAULTED at the instruction until
Equinox has brought it, with its store-fault records delivered (R31, R154); a fault of class 2 (or COPY_SADD_PAGE) met
through a translation that the tables no longer hold drops that translation, and the instruction executes again; every
other fault fails the task. No register, no SRF and no memory changes but where the task fails. That the first
deschedules the gang and the second keeps the strand resident is the model's choice where R198 leaves it to Equinox (log
82). R24, R57, R58, R421: a fatal fault ends the strand's task: every seat of its gang is FAILED with SEQ + 1 and
without an SP, the cause in the faulting seat; its SPs are idle with their registers as they were; the launch has
recorded the first cause; the task of a GRAPH launch is FAILED with the cause, and every WAITING task that its successor
edges reach is POISONED. No other gang changes. -/
def Obligations.AccessFaults : Prop :=
  (∀ (m : MemMod) (code : BitVec 4) (d a b c : SReg) (imm : BitVec 20) (s : State),
      let addr := (s.sreg a + imm.signExtend 64).toNat
      let at_ := (s.sreg a).toNat
      let n := 2 ^ m.size.toNat
      let fault (k : Cause) (x : Nat) : Host.Outcome State Fault Refusal := .next (strandFault s s.cur k x)
      s.me.sto.records = [] →
      (WellFormed (.ldg m d a imm) = true →
        (addr % n ≠ 0 → exec (.ldg m d a imm) s = fault cGMisaligned addr)
        ∧ (addr % n = 0 → s.me.pend = .none → ∀ k, translate s (.sp s.cur) s.myCtx addr .read .scp = .error k →
            exec (.ldg m d a imm) s = fault k addr))
      ∧ (WellFormed (.stg m a b imm) = true →
        (addr % n ≠ 0 → exec (.stg m a b imm) s = fault cGMisaligned addr)
        ∧ (addr % n = 0 → m.order = 2 → Released s m.scope → ∀ k, lookup s (.sp s.cur) s.myCtx addr = .error k →
            exec (.stg m a b imm) s = fault k addr)
        ∧ (addr % n = 0 → (m.order = 2 → Released s m.scope) → ∀ k lf, lookup s (.sp s.cur) s.myCtx addr = .ok lf →
            (m.order = 2 ∨ lf.ord = 0 ∨ mapFaultPrecise s.tick k = true) →
            checkUse s lf .write (if m.size = 3 then .scpStg8 else .scp) = some k →
            exec (.stg m a b imm) s = .next (strandFault (fillTlb s (.sp s.cur) s.myCtx lf) s.cur k addr)))
      ∧ (WellFormed (.amog m code d a b c) = true →
        (at_ % n ≠ 0 → exec (.amog m code d a b c) s = fault cGMisaligned at_)
        ∧ (at_ % n = 0 → ∀ k, translate s (.sp s.cur) s.myCtx at_ .amo .scp = .error k →
            exec (.amog m code d a b c) s = fault k at_))
      ∧ (WellFormed (.ldf m d a imm) = true →
        (2 ^ 32 ≤ addr → exec (.ldf m d a imm) s = fault cFSpaceHole addr)
        ∧ (addr < 2 ^ 32 → addr % n ≠ 0 → exec (.ldf m d a imm) s = fault cFMisaligned addr)
        ∧ (addr < 2 ^ 32 → addr % n = 0 → s.fDecode s.cur addr = .hole →
            exec (.ldf m d a imm) s = fault cFSpaceHole addr))
      ∧ (WellFormed (.stf m a b imm) = true →
        (2 ^ 32 ≤ addr → exec (.stf m a b imm) s = fault cFSpaceHole addr)
        ∧ (addr < 2 ^ 32 → addr % n ≠ 0 → exec (.stf m a b imm) s = fault cFMisaligned addr)
        ∧ (addr < 2 ^ 32 → addr % n = 0 → (m.order = 2 → Released s m.scope) → s.fDecode s.cur addr = .hole →
            exec (.stf m a b imm) s = fault cFSpaceHole addr))
      ∧ (WellFormed (.amof m code d a b c) = true →
        (2 ^ 32 ≤ at_ → exec (.amof m code d a b c) s = fault cFSpaceHole at_)
        ∧ (at_ < 2 ^ 32 → at_ % n ≠ 0 → exec (.amof m code d a b c) s = fault cFMisaligned at_)
        ∧ (at_ < 2 ^ 32 → at_ % n = 0 → s.fDecode s.cur at_ = .hole →
            exec (.amof m code d a b c) s = fault cFSpaceHole at_)))
  ∧ (∀ (s : State) (sp : SpId) (c : Cause) (va : Nat),
      let p := s.sp sp
      let t := strandFault s sp c va
      let lost := (bySeq p.sto.records).find? fun r => recordFix s p.id.ctx r = .no
      let stale : Prop := (c.toNat / 128 = 2 ∨ c = cCopySaddPage) ∧ staleTlb s (.sp sp) p.id.ctx va = true
      (repairable s p.id.ctx va c = true →
        (∀ r, lost = some r → t = failStrand s sp r.cause)
        ∧ (lost = none →
          t.sp sp = { p with run := .stopped (.fault c), pend := .repair c (BitVec.ofNat 64 va)
                             sto := { p.sto with delivered := !p.sto.records.isEmpty } }
          ∧ (∀ i, i ≠ sp → t.sp i = s.sp i) ∧ SameMem s t ∧ t.dies = s.dies ∧ t.launches = s.launches
          ∧ (va < 2 ^ 56 → ∃ x ∈ t.dev.pageAsks, x.ctx = p.id.ctx ∧ ∃ e, hostEntry s p.id.ctx va = some e
              ∧ onPage (va / e.2.2 * e.2.2) e.2.2 x.va.toNat = true)))
      ∧ (repairable s p.id.ctx va c = false → stale →
          t.sp sp = { p with tlb := (t.sp sp).tlb } ∧ (∀ i, i ≠ sp → t.sp i = s.sp i)
          ∧ t = { s with sps := t.sps, dies := t.dies, dev := { s.dev with faults := t.dev.faults } }
          ∧ tlbHit t (.sp sp) p.id.ctx va = none)
      ∧ (repairable s p.id.ctx va c = false → ¬stale → t = failStrand s sp c))
  ∧ (∀ (s : State) (sp : SpId) (c : Cause) (gi : Nat) (g : Gang),
      let n := (s.sp sp).id.seat.toNat
      let t := failStrand s sp c
      c ≠ 0 → (s.sp sp).gang = some gi → s.gangs[gi]? = some g →
      (∃ h : Gang, t.gangs[gi]? = some h ∧ h.live = false
        ∧ h.seats = g.seats.zipIdx.map fun q =>
            { q.1 with status := .failed, seq := q.1.seq + 1, sp := none, cause := if q.2 = n then c else q.1.cause })
      ∧ (∀ j, j ≠ gi → t.gangs[j]? = s.gangs[j]?)
      ∧ (∀ q ∈ g.seats, ∀ i, q.sp = some i → (t.sp i).run = .idle ∧ (t.sp i).gang = none)
      ∧ (∀ i, (t.sp i).r = (s.sp i).r ∧ (t.sp i).kim = (s.sp i).kim)
      ∧ (∀ l : Launch, s.launches[g.launch]? = some l → ∃ l' : Launch, t.launches[g.launch]? = some l' ∧ l'.badTask = true
          ∧ l'.cause = (if l.cause = 0 then c else l.cause)
          ∧ (l.r.kind = 1 → ∀ k, l.tasks[g.tindex.toNat]? = some k →
              (∃ k', l'.tasks[g.tindex.toNat]? = some k' ∧ k'.status = .failed ∧ k'.cause = c)
              ∧ ∀ j x, j ≠ g.tindex.toNat → l.tasks[j]? = some x → x.status = .waiting →
                  Relation.TransGen (fun a b => ∃ y, l.tasks[a]? = some y ∧ b ∈ y.succ) g.tindex.toNat j →
                  ∃ x', l'.tasks[j]? = some x' ∧ x'.status = .poisoned)))

/-! ## SCP: stream operations, launches, deals -/

/-- R69, R85, R176, R356, R357: scopy with a free tag reads its template from a local page and enters its channel's queue;
its tag is pending from then on, and it keeps its wait mask without its own tag, its urgency and the slack of that
class. When its template is good and writes the SRF, the lines that hold a destination byte become empty, and no other.
R85, R87, R304, R307, R360, R362: sfence, kload and krun with a free tag are recorded in their queues, and their tag is
pending from then on. krun reads and checks its block first; while its tag is pending it then stalls with the block,
which is the one it is recorded with. R85, R144, R361, R362, R382: swait goes on once every tag of its mask is complete
and none carries a cause, and the window writes of the kernels of these tags are the strand's own from then on; while a
tag is pending it waits; a cause that a tag carries is delivered as a fault. In its second form it waits for a write
pointer. -/
def Obligations.StreamOps : Prop :=
  (∀ (m : StrMod) (ti : BitVec 16) (a b : SReg) (s : State) (lf : Leaf),
      let tag : TagId := tagOf m.tag
      let ch : ChId := chOf m.chan
      let tb := s.me.r.ttbase
      let va := templateAddr tb ti
      let o : StreamOp := ⟨s.me.str.num, some tag, ((s.sreg a).setWidth 32) &&& ~~~((1 : W32) <<< tag.val), m.urg,
        s.me.r.slk[m.urg.toFin], .copy ti ((s.sreg b).setWidth 32) tb ch (m.tag.setWidth 16)⟩
      let x := parseTemplate (s.physRead (lf.pa va) 64)
      let emptied (q : SpId) (l : Nat) : Prop := templateIn tb ti = true ∧ x.writesF = true ∧ templateOk s s.myCtx x = true
        ∧ ∃ row b, row < x.rows ∧ b < x.rowBytes
          ∧ lineOf s s.cur ((x.dst row 0 + BitVec.ofNat 64 b).toNat / 128 * 128) = some (q, l)
      s.me.str.busy tag = false → s.me.sto.records = [] → s.me.sto.weak = [] → weakTxns s s.cur = [] → s.me.pend = .none →
      (templateIn tb ti = true → FreePage s va 64 .read .scp lf) →
      ∃ t, exec (.scopy m ti a b) s = .next t
        ∧ t.me.str.chans[ch].queue = s.me.str.chans[ch].queue ++ [o]
        ∧ (∀ c : ChId, c ≠ ch → t.me.str.chans[c] = s.me.str.chans[c])
        ∧ t.me.str.tags[tag] = ⟨true, none⟩ ∧ (∀ x : TagId, x ≠ tag → t.me.str.tags[x] = s.me.str.tags[x])
        ∧ t.me.str.num = s.me.str.num + 1 ∧ t.me.r = { s.me.r with pc := s.after } ∧ SameMem s t
        ∧ t.me.str.kq = s.me.str.kq ∧ t.me.str.kimq = s.me.str.kimq
        ∧ (∀ q l, l < 65536 → ((t.sp q).fe.getLsbD l = true ↔ (s.sp q).fe.getLsbD l = true ∧ ¬ emptied q l))
        ∧ (∀ q, q ≠ s.cur → t.sp q = { s.sp q with fe := (t.sp q).fe }))
  ∧ (∀ (m : StrMod) (mask : BitVec 16) (kbase entry : BitVec 12) (chk : Bool) (a b c : SReg) (s : State) (lf : Leaf),
      let tag : TagId := tagOf m.tag
      let op (body : StreamBody) : StreamOp := ⟨s.me.str.num, some tag,
        ((s.sreg a).setWidth 32) &&& ~~~((1 : W32) <<< tag.val), m.urg, s.me.r.slk[m.urg.toFin], body⟩
      let taken (t : State) : Prop := t.me.str.tags[tag] = ⟨true, none⟩
        ∧ (∀ x : TagId, x ≠ tag → t.me.str.tags[x] = s.me.str.tags[x]) ∧ t.me.str.chans = s.me.str.chans
        ∧ t.me.str.num = s.me.str.num + 1 ∧ t.me.r = { s.me.r with pc := s.after } ∧ SameMem s t
        ∧ (∀ i, i ≠ s.cur → t.sp i = s.sp i)
      let blk := parseKBlock (s.physRead (lf.pa (s.sreg b).toNat) 128)
      let runs (t : State) (k : KBlock) : Prop := taken t
        ∧ t.me.str.kq = s.me.str.kq ++ [op (.krun entry chk k)] ∧ t.me.str.kimq = s.me.str.kimq
      let free : Prop := s.me.str.busy tag = false
      (WellFormed (.sfence m mask a) = true → free → (s.me.pend = .fence ∨ undelivered s.me.str mask = none) →
        ∃ t, exec (.sfence m mask a) s = .next t ∧ taken t
          ∧ t.me.str.fences = s.me.str.fences ++ [op (.sfence (copiesIn s.me.str mask))])
      ∧ (WellFormed (.kload m kbase a b c) = true → free → (s.sreg b).toNat % 64 = 0 → s.sreg c ≠ 0 →
          kbase.toNat + (s.sreg c).toNat ≤ 4096 →
        ∃ t, exec (.kload m kbase a b c) s = .next t ∧ taken t
          ∧ t.me.str.kimq = s.me.str.kimq ++ [op (.kload kbase (s.sreg b) (s.sreg c))] ∧ t.me.str.kq = s.me.str.kq)
      ∧ (WellFormed (.krun m entry chk a b) = true → (s.sreg b).toNat % 64 = 0 → (s.sreg b).toNat % 4096 ≤ 3968 →
          s.me.sto.records = [] → s.me.sto.weak = [] → s.me.pend = .none →
          FreePage s (s.sreg b).toNat 128 .read .scp lf → kblockOk s.me.alloc entry blk = true →
        (free → ∃ t, exec (.krun m entry chk a b) s = .next t ∧ runs t blk.1)
        ∧ (¬ free → ∃ t, exec (.krun m entry chk a b) s = .next t ∧ t.me = { s.me with pend := .krun blk.1, tlb := t.me.tlb }
            ∧ (∀ i, i ≠ s.cur → t.sp i = s.sp i) ∧ SameMem s t))
      ∧ (∀ k, WellFormed (.krun m entry chk a b) = true → s.me.pend = .krun k →
        (free → s.me.sto.weak = [] → ∃ t, exec (.krun m entry chk a b) s = .next t ∧ runs t k)
        ∧ (¬ free → exec (.krun m entry chk a b) s = .next s)))
  ∧ (∀ (m : StrMod) (mask : BitVec 16) (a b : SReg) (s : State),
      let tags : W32 := (s.sreg a).setWidth 32
      let c := s.me.str.chans[chOf m.chan]
      let reached : Prop := (c.wp - (s.sreg b).setWidth 48).toNat < 2 ^ 47
      (s.me.str.clear tags = true → tagCause s.me.str tags = none →
        ∃ t, exec (.swait m a b) s = .next t ∧ WentTo (coverTags s s.cur tags) t s.after)
      ∧ (s.me.str.clear tags = false → exec (.swait m a b) s = .next s)
      ∧ (∀ u, s.me.str.clear tags = true → tagCause s.me.str tags = some u →
          ∃ t, OnlyMe s t ∧ exec (.swait m a b) s = .next (failStrand t s.cur u.2))
      ∧ (reached → c.und = [] → ∃ t, exec (.swaitWp m a b) s = .next t ∧ WentTo s t s.after)
      ∧ (¬ reached → exec (.swaitWp m a b) s = .next s)
      ∧ (∀ u, WellFormed (.sfence m mask a) = true → undelivered s.me.str mask = some u → s.me.pend ≠ .fence →
          ∃ t, OnlyMe s t ∧ exec (.sfence m mask a) s = .next (failStrand t s.cur u.2)))

/-- R63, R310: launch reads a record from a local page; a bad record returns 3, a nesting depth past 16 returns 2, a live
launch ID 4, a full pool 1; else the launch is accepted with the depth below its parent's, enters the pool of the SP's
die, and 0 is returned. -/
def Obligations.LaunchPushed : Prop :=
  ∀ (d a : SReg) (s : State) (lf : Leaf),
    let va := (s.sreg a).toNat
    let r := parseLRec (s.physRead (lf.pa va) 128)
    let bad : Prop := lrecBad s s.myCtx r = true ∨ kimBad s s.myCtx r = true
    let pool := (s.die (dieOf s.cur)).pool
    let returns (v : W64) : Prop := ∃ t, exec (.launch d a) s = .next t ∧ Loaded s t d v (s.pkt 0)
    (va % 128 ≠ 0 → ∃ t, exec (.launch d a) s = .next t ∧ Wrote s t d 3)
    ∧ (va % 128 = 0 → s.me.sto.records = [] → s.me.sto.weak = [] → s.me.pend = .none →
        FreePage s va 128 .read .scp lf →
      (bad → returns 3)
      ∧ (¬ bad → 16 < s.depth + 1 → returns 2)
      ∧ (¬ bad → s.depth + 1 ≤ 16 → (liveLaunch s s.myCtx r.launchId).isSome = true → returns 4)
      ∧ (¬ bad → s.depth + 1 ≤ 16 → liveLaunch s s.myCtx r.launchId = none → 4096 ≤ pool.length → returns 1)
      ∧ (¬ bad → s.depth + 1 ≤ 16 → liveLaunch s s.myCtx r.launchId = none → pool.length < 4096 → Released s 3 →
          ∃ t l, exec (.launch d a) s = .next t ∧ t.launches = s.launches ++ [l] ∧ l.r = r ∧ l.ctx = s.myCtx
            ∧ l.depth = s.depth + 1 ∧ l.phase = .accepted ∧ l.src = .pool (dieOf s.cur) ∧ l.gone = false
            ∧ (t.die (dieOf s.cur)).pool = pool ++ [s.launches.length]
            ∧ (d ≠ 0 → t.sreg d = 0) ∧ (∀ j, j ≠ d → t.sreg j = s.sreg j) ∧ t.me.r.pc = s.after ∧ SameMem s t))

/-- R182, R184, R297, R387: deal and undeal read a descriptor from a local page; when their die's queue is full they return
1, else the operation is appended to it with its slack, and 0 is returned. A misaligned address returns 2, and so does a
descriptor whose contents are bad; nothing is queued then. -/
def Obligations.DealQueued : Prop :=
  ∀ (undeal : Bool) (d a : SReg) (s : State) (lf : Leaf),
    let i : Instr := if undeal then .undeal d a else .deal d a
    let va := (s.sreg a).toNat
    let x := parseDesc (s.physRead (lf.pa va) 128)
    let dealer := (s.die (dieOf s.cur)).dealer
    let waiting := (dealer.queue.filter fun o => !o.cancelled).length
    (va % 128 ≠ 0 → ∃ t, exec i s = .next t ∧ Wrote s t d 2)
    ∧ (va % 128 = 0 → s.me.sto.records = [] → s.me.sto.weak = [] → s.me.pend = .none →
        FreePage s va 128 .read .scp lf →
      (x.ok undeal = false → ∃ t, exec i s = .next t ∧ (d ≠ 0 → t.sreg d = 2) ∧ (∀ j, j ≠ d → t.sreg j = s.sreg j)
        ∧ t.me.r.pc = s.after ∧ (∀ k, (t.die k).dealer = (s.die k).dealer))
      ∧ (x.ok undeal = true → 16 ≤ waiting → ∃ t, exec i s = .next t ∧ Loaded s t d 1 (s.pkt 0))
      ∧ (x.ok undeal = true → waiting < 16 → Released s 3 →
          ∃ t, exec i s = .next t
            ∧ (t.die (dieOf s.cur)).dealer = { dealer with
                queue := dealer.queue ++ [⟨s.myCtx, s.myGang?.map Gang.launch, undeal, x,
                  if x.slkx then x.slack else s.me.r.slk[x.slkc.toFin], s.dev.dealNum, false⟩] }
            ∧ t.dev.dealNum = s.dev.dealNum + 1
            ∧ (d ≠ 0 → t.sreg d = 0) ∧ (∀ j, j ≠ d → t.sreg j = s.sreg j) ∧ t.me.r.pc = s.after ∧ SameMem s t))

/-! ## Kernel slots -/

/-- R91, R96, R276 to R278, R281, R282, R286, R344: the arithmetic, selection and moves of the SA slot read their sources at
issue and put their results in flight: one step after issue for most, two for amul, three for ald. R100, R313: lcset
whose guard is true in some cluster puts the loop registers in flight with the value of the lowest such cluster; with a
guard that is true nowhere it does nothing. -/
def Obligations.KernelScalars : Prop :=
  (∀ (g : Guard) (ad a1 a2 : BitVec 5) (l neg : Bool) (imm : BitVec 14) (cond : BitVec 3) (pd ps : BitVec 4) (s : State),
      let e := s.me.ke
      let x (c : ClId) : W32 := e.cl[c].aGet c a1.toNat
      let y (c : ClId) : W32 := if l then e.lit else e.cl[c].aGet c a2.toNat
      let done (i : Instr) (lat : Nat) (f : ClId → Landing) : Prop :=
        WellFormed i = true → ∃ t, exec i s = .next t ∧ Issued s t (e.inAll g lat f) fun _ => 0
      let scalar (i : Instr) (lat : Nat) (f : ClId → W32) : Prop := done i lat fun c => .areg ad.toFin (f c)
      e.Settled →
      scalar (.aadd g ad a1 a2 l) 1 (fun c => x c + y c)
      ∧ scalar (.asub g ad a1 a2 l) 1 (fun c => x c - y c)
      ∧ scalar (.amul g ad a1 a2 l) 2 (fun c => x c * y c)
      ∧ scalar (.aaddi g ad a1 imm) 1 (fun c => x c + imm.signExtend 32)
      ∧ scalar (.ali g ad) 1 (fun _ => e.lit)
      ∧ scalar (.asel g ad ps a1 a2 l) 1 (fun c => if ps = 0 ∨ e.cl[c].p.getLsbD ps.toNat = true then x c else y c)
      ∧ (∀ vn : BitVec 5, e.Has vn →
          scalar (.ald g ad vn a2 l imm) 3 fun c =>
            elemAt 32 e.cl[c].v[e.phys vn] ((y c + imm.signExtend 32).toNat % 1024))
      ∧ done (.acmp g cond pd a1 a2 l) 1 (fun c => .pred pd.toFin
          (if cond = 0 then decide (x c = y c) else if cond = 1 then decide (x c ≠ y c)
            else if cond = 2 then decide ((x c).toInt < (y c).toInt)
            else if cond = 3 then decide ((y c).toInt ≤ (x c).toInt)
            else if cond = 4 then decide ((x c).toNat < (y c).toNat) else decide ((y c).toNat ≤ (x c).toNat)))
      ∧ done (.pmov g pd ps neg) 1 (fun c => .pred pd.toFin ((decide (ps = 0) || e.cl[c].p.getLsbD ps.toNat) != neg))
      ∧ (∀ (tsr : BitVec 3) (b : BitVec 2), (h : tsr.toNat < 6) →
          done (.atsr g pd tsr b) 3 fun c => .pred pd.toFin ((e.cl[c].tsr[tsr.toNat]'h).getLsbD b.toNat)))
  ∧ (∀ (g : Guard) (a2 : BitVec 5) (l : Bool) (st : BitVec 8) (s : State),
      let e := s.me.ke
      e.Settled → WellFormed (.lcset g a2 l st) = true →
      ((∀ c, e.on g c = false) → ∃ t, exec (.lcset g a2 l st) s = .next t ∧ Issued s t [] fun _ => 0)
      ∧ ∀ c, e.on g c = true → (∀ b, b < c → e.on g b = false) →
          ∃ t, exec (.lcset g a2 l st) s = .next t
            ∧ Issued s t [⟨c, e.stepNo + 1, .lcset (if l then e.lit else e.cl[c].aGet c a2.toNat) st⟩] fun _ => 0)

/-- R130, R131, R394, R395, R399 to R401: floating arithmetic, special functions and conversion, element by element with one
rounding. vexp2 and vlog2 may return either neighbour of an inexact result. R111, R114 to R116, R130 to R132: what the
floating operations give of finite operands is the exact result rounded once in the mode, where it lies within the
format; beyond it by half a last place, to nearest, it is an infinity. The result is exact just when NX is not raised. A
NaN operand gives the default NaN. Conversion rounds once to the other format or to an integer; vexp2 of an integer
gives the exact power of two, and vlog2 of a power of two its exponent, rounded to nearest. R113, R114, R116, R130:
rounding to a multiple of 2^q. Round to nearest even leaves a remainder of at most half a unit and chooses the even
neighbour in a tie; toward zero, down and up choose the neighbour on their side. The inexact mark is set exactly when
the value is no multiple. -/
def Obligations.KernelFloat : Prop :=
  (∀ (g : Guard) (fmt dst : BitVec 3) (rnd : BitVec 2) (vd : BitVec 5) (a b d : VSrc) (m : MSel) (s : State),
      let e := s.me.ke
      let w := fmtW fmt
      let r := rndOf rnd
      let f : FFmt := if fmt = 0 then fp32 else if fmt = 1 then bf16 else fp16
      let A (c : ClId) (i : Nat) : Nat := vElem w (srcVal e c 0 w a) i
      let B (c : ClId) (i : Nat) : Nat := vElem w (srcVal e c 1 w b) i
      let D (c : ClId) (i : Nat) : Nat := vElem w (srcVal e c 2 w d) i
      VecDone (.vadd g fmt rnd vd a b m) s g 2 w vd m w [(0, a), (1, b)] (fun c i => f.add r (A c i) (B c i))
      ∧ VecDone (.vsub g fmt rnd vd a b m) s g 2 w vd m w [(0, a), (1, b)] (fun c i => f.sub r (A c i) (B c i))
      ∧ VecDone (.vmul g fmt rnd vd a b m) s g 2 w vd m w [(0, a), (1, b)] (fun c i => f.mul r (A c i) (B c i))
      ∧ VecDone (.vfma g fmt rnd vd a b d m) s g 3 w vd m w [(0, a), (1, b), (2, d)]
          (fun c i => f.fma r (A c i) (B c i) (D c i))
      ∧ VecDone (.vrcp g fmt rnd vd a m) s g 5 w vd m w [(0, a)] (fun c i => f.rcp r (A c i))
      ∧ VecDone (.vrsq g fmt rnd vd a m) s g 5 w vd m w [(0, a)] (fun c i => f.rsq r (A c i))
      ∧ (∃ up : ClId → Nat → Bool,
          VecDone (.vexp2 g fmt rnd vd a m) s g 5 w vd m w [(0, a)] (fun c i => f.exp2 (up c i) (A c i)))
      ∧ (∃ up : ClId → Nat → Bool,
          VecDone (.vlog2 g fmt rnd vd a m) s g 5 w vd m w [(0, a)] (fun c i => f.log2 (up c i) (A c i)))
      ∧ VecDone (.vcvt g fmt dst rnd vd a m) s g 2 (fmtW dst) vd m w [(0, a)] (fun c i =>
          let v := srcVal e c 0 w a
          if fmtW dst = w then cvt (laneFmt fmt) (laneFmt dst) r (vElem w v i)
          else if w = 32 then
            (if i % 2 = 0 then cvt (laneFmt fmt) (laneFmt dst) r (vElem 32 v (i / 2)) else (0, 0))
          else cvt (laneFmt fmt) (laneFmt dst) r (vElem 16 v (2 * i))))
  ∧ (∀ (f h : FFmt) (mode : Rnd) (a b c : Nat),
      (f = fp32 ∨ f = bf16 ∨ f = fp16) → (h = fp32 ∨ h = bf16 ∨ h = fp16) →
      let once (v : Rat) (r : Nat × KF) : Prop := f.fits v → f.Rounds mode v r.1 ∧ (r.2 &&& fNX ≠ 0 ↔ f.val r.1 ≠ v)
      (f.finite a → f.finite b → f.finite c →
        once (f.val a + f.val b) (f.add mode a b) ∧ once (f.val a - f.val b) (f.sub mode a b)
        ∧ once (f.val a * f.val b) (f.mul mode a b) ∧ once (f.val a * f.val b + f.val c) (f.fma mode a b c)
        ∧ (f.val a ≠ 0 → once (1 / f.val a) (f.rcp mode a))
        ∧ (f.top + pow2 (f.qmin + 2 ^ f.eb - 4) ≤ f.val a + f.val b → (f.add .rne a b).1 = f.infCode false)
        ∧ (f.val a + f.val b ≤ -(f.top + pow2 (f.qmin + 2 ^ f.eb - 4)) → (f.add .rne a b).1 = f.infCode true)
        ∧ (h.fits (f.val a) → h.Rounds mode (f.val a) (cvt (.f f) (.f h) mode a).1)
        ∧ (∀ (w : Nat) (sgn : Bool) (r : Int), (w = 16 ∨ w = 32) → intRounds mode (f.val a) r → intMin w sgn ≤ r →
            r ≤ intMax w sgn → (cvt (.f f) (.int w sgn) mode a).1 = intBits w r)
        ∧ (∀ (up : Bool) (k : Int), f.val a = k → f.qmin ≤ k → k ≤ f.bias → f.val (f.exp2 up a).1 = pow2 k)
        ∧ (∀ (up : Bool) (k : Int), f.val a = pow2 k → f.Rounds .rne k (f.log2 up a).1))
      ∧ (∀ (w : Nat) (sgn : Bool), (w = 16 ∨ w = 32) → a < 2 ^ w → f.fits (intVal w sgn a) →
          f.Rounds mode (intVal w sgn a) (cvt (.int w sgn) (.f f) mode a).1)
      ∧ ((f.decode a).isNan = true → (f.add mode a b).1 = f.nanCode ∧ (f.mul mode a b).1 = f.nanCode
          ∧ (f.fma mode a b c).1 = f.nanCode ∧ (f.rcp mode a).1 = f.nanCode))
  ∧ (∀ (neg : Bool) (m : Nat) (e q : Int), e < q →
      let d : Nat := 2 ^ (q - e).toNat
      let r (mode : Rnd) : Nat := (roundAt mode neg m e q false).1
      (2 * (r .rne * d : Int) - 2 * m ≤ d ∧ 2 * (m : Int) - 2 * (r .rne * d) ≤ d)
      ∧ (2 * (m % d) = d → r .rne % 2 = 0)
      ∧ (r .rtz * d ≤ m ∧ m < (r .rtz + 1) * d)
      ∧ (neg = true → m ≤ r .rdn * d ∧ r .rdn * d < m + d) ∧ (neg = false → r .rdn = r .rtz)
      ∧ (neg = false → m ≤ r .rup * d ∧ r .rup * d < m + d) ∧ (neg = true → r .rup = r .rtz)
      ∧ ∀ mode, (roundAt mode neg m e q false).2 = decide (m % d ≠ 0))

/-- R395, R396, R402: integer arithmetic wraps or saturates with flag SAT (bit 5), shift counts are taken mod the width, and
the bitwise operations; vmin and vmax for every format. -/
def Obligations.KernelInteger : Prop :=
  ∀ (g : Guard) (fmt : BitVec 3) (rnd : BitVec 2) (sat : Bool) (vd : BitVec 5) (a b : VSrc) (m : MSel) (s : State),
    let e := s.me.ke
    let w := fmtW fmt
    let sgn : Bool := fmt == 3 || fmt == 4
    let val (x : Nat) : Int := if sgn = true ∧ 2 ^ (w - 1) ≤ x then (x : Int) - 2 ^ w else x
    let lo : Int := if sgn then -2 ^ (w - 1) else 0
    let hi : Int := if sgn then 2 ^ (w - 1) - 1 else 2 ^ w - 1
    let fits (x : Int) : Nat × KF :=
      if lo ≤ x ∧ x ≤ hi then ((x % 2 ^ w).toNat, 0)
      else if sat then (((if x < lo then lo else hi) % 2 ^ w).toNat, 0x20) else ((x % 2 ^ w).toNat, 0)
    let A (c : ClId) (i : Nat) : Nat := vElem w (srcVal e c 0 w a) i
    let B (c : ClId) (i : Nat) : Nat := vElem w (srcVal e c 1 w b) i
    let two (i : Instr) (lat : Nat) (f : Nat → Nat → Nat × KF) : Prop :=
      VecDone i s g lat w vd m w [(0, a), (1, b)] fun c i => f (A c i) (B c i)
    two (.viadd g fmt sat vd a b m) 2 (fun x y => fits (val x + val y))
    ∧ two (.visub g fmt sat vd a b m) 2 (fun x y => fits (val x - val y))
    ∧ two (.vimul g fmt sat vd a b m) 3 (fun x y => fits (val x * val y))
    ∧ two (.vshl g fmt sat vd a b m) 2 (fun x y => fits (val x * 2 ^ (y % w)))
    ∧ two (.vshr g fmt vd a b m) 2 (fun x y => ((val x / 2 ^ (y % w) % 2 ^ w).toNat, 0))
    ∧ two (.vand g fmt vd a b m) 2 (fun x y => (x &&& y, 0))
    ∧ two (.vor g fmt vd a b m) 2 (fun x y => (x ||| y, 0))
    ∧ two (.vxor g fmt vd a b m) 2 (fun x y => (x ^^^ y, 0))
    ∧ (3 ≤ fmt.toNat → two (.vmin g fmt rnd vd a b m) 2 fun x y => (if val x ≤ val y then x else y, 0))
    ∧ (3 ≤ fmt.toNat → two (.vmax g fmt rnd vd a b m) 2 fun x y => (if val x < val y then y else x, 0))
    ∧ (fmt.toNat < 3 → two (.vmin g fmt rnd vd a b m) 2 fun x y =>
        (if fmt = 0 then fp32 else if fmt = 1 then bf16 else fp16).minMax true x y)
    ∧ (fmt.toNat < 3 → two (.vmax g fmt rnd vd a b m) 2 fun x y =>
        (if fmt = 0 then fp32 else if fmt = 1 then bf16 else fp16).minMax false x y)

/-- R397, R403, R405, R410: moves of the VB slot: element `i` of the destination comes from the element that the operation
names; a row has 64 elements of 32 bits or 128 of 16. R392, R398, R404: vcmp and vmask write a mask: for 32-bit elements
both governing bits of an element are equal. -/
def Obligations.KernelMovesMasks : Prop :=
  (∀ (g : Guard) (fmt : BitVec 3) (mode : BitVec 4) (msk : BitVec 3) (vd : BitVec 5) (a b : VSrc) (n : BitVec 8)
        (inv : Bool) (m : MSel) (s : State),
      let e := s.me.ke
      let w := fmtW fmt
      let len := 2048 / w
      let A (c : ClId) (i : Nat) : Nat := vElem w (srcVal e c 3 w a) i
      let moves (i : Instr) (lat : Nat) (m : MSel) (f : Nat → Nat) : Prop :=
        VecDone i s g lat w vd m w [(3, a)] fun c i => (A c (f i), 0)
      moves (.vmov g fmt vd a m) 2 m (fun i => i)
      ∧ moves (.vrotr g fmt vd a n m) 2 m (fun i => i / len * len + (i % len + n.toNat) % len)
      ∧ moves (.vrotc g fmt vd a n m) 4 m (fun i => (i / len + n.toNat) % 16 * len + i % len)
      ∧ moves (.vbcr g fmt vd a n m) 2 m (fun i => i / len * len + n.toNat)
      ∧ moves (.vbcc g fmt vd a n m) 4 m (fun i => n.toNat * len + i % len)
      ∧ moves (.vtrn g fmt vd a inv) 3 ⟨false, 0⟩
          (fun i => if inv then i % 64 * (512 / w) + i / 64 else i % (512 / w) * 64 + i / (512 / w))
      ∧ VecDone (.viota g mode fmt vd m) s g 2 w vd m w []
          (fun _ i => (if mode = 0 then i else if mode = 1 then i % len else i / len, 0))
      ∧ VecDone (.vsel g fmt vd a b msk) s g 2 w vd ⟨false, 0⟩ w [(3, a), (5, b)] fun c i =>
          (if e.cl[c].m[msk.toFin].getLsbD (if w = 32 then 2 * i else i) then A c i
            else vElem w (srcVal e c 5 w b) i, 0))
  ∧ (∀ (g : Guard) (cond op : BitVec 4) (fmt md : BitVec 3) (a b : VSrc) (m : MSel) (s : State),
      let e := s.me.ke
      let w := fmtW fmt
      let elem (j : Nat) : Nat := if w = 32 then j / 2 else j
      let cmpOf (c : ClId) (i : Nat) : Bool × KF :=
        vcmpElem cond fmt (vElem w (srcVal e c 3 w a) i) (vElem w (srcVal e c 4 w b) i)
      e.Settled →
      (WellFormed (.vcmp g cond fmt md a b m) = true → e.HasSrc a → e.HasSrc b →
        ∃ (t : State) (dat msk : ClId → MaskR), exec (.vcmp g cond fmt md a b m) s = .next t
          ∧ IssuedWith s t (e.inAll g 2 fun c => .maskReg md.toFin (dat c) (msk c))
              (e.flagsOn g fun c => e.elemFlags c w m fun i => (cmpOf c i).2) (e.latched (e.on g) w [(3, a), (4, b)]) e.qs
          ∧ ∀ (c : ClId) (j : Nat), j < 2048 →
              (dat c).getLsbD j = (cmpOf c (elem j)).1 ∧ (msk c).getLsbD j = elemOn e c w m (elem j))
      ∧ (WellFormed (.vmask g op fmt md a b) = true → (op = 6 → e.HasSrc a) →
        ∃ (t : State) (dat : ClId → MaskR), exec (.vmask g op fmt md a b) s = .next t
          ∧ IssuedWith s t (e.inAll g 2 fun c => .maskReg md.toFin (dat c) (BitVec.allOnes 2048)) (fun _ => 0)
              (e.latched (e.on g) w (if op = 6 then [(3, a)] else [])) e.qs
          ∧ ∀ (c : ClId) (j : Nat), j < 2048 →
              let p : Bool := e.cl[c].m[(a.sel.setWidth 3).toFin].getLsbD j
              let q : Bool := e.cl[c].m[(b.sel.setWidth 3).toFin].getLsbD j
              (dat c).getLsbD j =
                (if op = 0 then p && q else if op = 1 then p || q else if op = 2 then p != q else if op = 3 then p && !q
                  else if op = 4 then !p else if op = 5 then decide (elem j < e.lit.toNat)
                  else decide (vElem w (srcVal e c 3 w a) (elem j) ≠ 0))))

/-- R406, R407: reductions of rows and columns, and scans; elements that the mask leaves out contribute nothing. R133, R408,
R409: vtopk ranks the 64 pairs (value, lane) of each row and keeps the first k, or merges two lists of pairs, taking
from the second only what precedes; values go to VD, indices to the next name, and the lanes past k are 0. -/
def Obligations.KernelReductions : Prop :=
  (∀ (g : Guard) (op : BitVec 4) (fmt : BitVec 3) (vd : BitVec 5) (a : VSrc) (m : MSel) (s : State),
      let e := s.me.ke
      let w := fmtW fmt
      let len := 2048 / w
      let rowRed (c : ClId) (l : List Nat) : Nat × KF :=
        reduce op (laneFmt fmt) ((l.filter fun j => elemOn e c w m j).map fun j => vElem w (srcVal e c 3 w a) j)
      VecDone (.vredr g op fmt vd a m) s g 2 w vd m w [(3, a)]
          (fun c i => rowRed c ((List.range len).map fun x => i / len * len + x))
      ∧ VecDone (.vredc g op fmt vd a m) s g 4 w vd m w [(3, a)]
          (fun c i => rowRed c ((List.range 16).map fun r => r * len + i % len))
      ∧ VecDone (.vscanr g op fmt vd a m) s g 2 w vd m w [(3, a)]
          (fun c i => rowRed c ((List.range (i % len + 1)).map fun x => i / len * len + x)))
  ∧ (∀ (g : Guard) (fmt : BitVec 3) (vd : BitVec 5) (a b d : VSrc) (km1 : BitVec 8) (s : State),
      let e := s.me.ke
      let k := km1.toNat + 1
      let ia : VSrc := ⟨false, (a.sel.setWidth 5 + 1 : BitVec 5).setWidth 6⟩
      let val (c : ClId) (r n : Nat) : Nat := vElem 32 (srcVal e c 3 32 a) (64 * r + n)
      let put (out : ClId → Nat → List Cand) : List InFlight :=
        e.inAll g 6 (fun c => .vreg (e.phys vd) (ofElems 32 fun i => ((out c (i / 64))[i % 64]?.map Prod.fst).getD 0) vOnes)
          ++ e.inAll g 6 fun c =>
            .vreg (e.phys (vd + 1)) (ofElems 32 fun i => ((out c (i / 64))[i % 64]?.map Prod.snd).getD 0) vOnes
      e.Settled → e.Has vd → e.Has (vd + 1) → e.HasSrc a →
      (WellFormed (.vtopk g fmt vd a b d km1 false) = true →
        ∃ (t : State) (out : ClId → Nat → List Cand), exec (.vtopk g fmt vd a b d km1 false) s = .next t
          ∧ IssuedWith s t (put out) (fun _ => 0) (e.latched (e.on g) 32 [(3, a)]) e.qs
          ∧ ∀ c r, r < 16 → ∃ l : List Cand,
              out c r = l.take k ∧ l.Perm ((List.range 64).map fun j => (val c r j, j))
              ∧ l.Pairwise fun x y => precedes fmt x y = true)
      ∧ (WellFormed (.vtopk g fmt vd a b d km1 true) = true → e.HasSrc ia → e.HasSrc b → e.HasSrc d →
          portsBad ([(e.phys (a.sel.setWidth 5)).val, (e.phys (ia.sel.setWidth 5)).val]
            ++ (if b.sel.toNat < 32 then [(e.phys (b.sel.setWidth 5)).val] else [])
            ++ (if d.sel.toNat < 32 then [(e.phys (d.sel.setWidth 5)).val] else [])) = false →
        ∃ t, exec (.vtopk g fmt vd a b d km1 true) s = .next t
          ∧ IssuedWith s t
              (put fun c r =>
                mergeCands fmt k
                  ((List.range k).map fun n => (val c r n, vElem 32 (srcVal e c 3 32 ia) (64 * r + n)))
                  ((List.range k).map fun n =>
                    (vElem 32 (srcVal e c 4 32 b) (64 * r + n), vElem 32 (srcVal e c 5 32 d) (64 * r + n))))
              (fun _ => 0) (e.latched (e.on g) 32 [(4, b), (5, d)]) e.qs))

/-- R103, R104, R325 to R332, R334, R336, R337: the matrix slot. An mma starts with the scales and the first operand part
read; mzero, mdrain and mfill put their results in flight; oclaim and orel change slot states. R129: what mdrain makes
of an accumulator element: the FP32 value as it is, or rounded once to nearest into the format; a value beyond the
format sets COVF (bit 2 of the TSR), an infinity INF, a NaN the default NaN and NAN; integers are taken as they are, or
saturated to 16 bits with COVF. R103, R336: orel of a slot that mma in the multiplier read makes it RELEASING, and FREE
when the last of them has left the multiplier. R104, R319, R320: lend and recall change bank 3 in every cluster one step
later, whatever the guard; lending a lent bank, and recalling while the repeat prefix will still use acc4 or acc5, fault
KERNEL_LEND_BUSY. -/
def Obligations.KernelMatrix : Prop :=
  (∀ (g : Guard) (fa fb : BitVec 4) (acc fmt : BitVec 3) (oa ob v : BitVec 5) (za zb : BitVec 4) (tr : Bool) (s : State),
      let e := s.me.ke
      let owned (c : ClId) (o : BitVec 5) : Prop := e.cl[c].opmSt[o.toFin] = .owned
      let steps : Nat := if fa = 8 then 16 else 8
      let wide : Bool := fmt == 0 || fmt == 3
      e.Settled →
      (WellFormed (.mma g fa fb acc oa ob za zb) = true → (e.lent = true ∨ acc.toNat < 4) →
          (∀ c, e.on g c = true → owned c oa ∧ owned c ob) →
        ∃ t, exec (.mma g fa fb acc oa ob za zb) s = .next t
          ∧ Issued s t (e.inAll g (steps + 1) fun c =>
              .mma (MmaRun.read ⟨fa, fb, acc, oa, ob, e.cl[c].z[za.toFin], e.cl[c].z[zb.toFin], e.stepNo, 0, 0⟩
                e.cl[c] e.stepNo)) (fun _ => 0)
          ∧ t.me.ke.mulFree = e.stepNo + steps)
      ∧ (WellFormed (.mzero g acc) = true → (e.lent = true ∨ acc.toNat < 4) →
        ∃ t, exec (.mzero g acc) s = .next t ∧ Issued s t (e.inAll g 1 fun _ => .accZero acc) fun _ => 0)
      ∧ (WellFormed (.mdrain g fmt acc v) = true → (e.lent = true ∨ acc.toNat < 4) →
          (∀ q : Nat, q < 4 → e.Has (v + BitVec.ofNat 5 q)) →
        let el (c : ClId) (x : Nat) : Nat × BitVec 3 × KF := drainElem fmt (elemAt 32 (e.cl[c].accGet acc) x).toNat
        let reg (q : Nat) : List InFlight := e.inAll g 4 fun c =>
          .vreg (e.phys (v + BitVec.ofNat 5 q))
            (ofElems (if wide then 32 else 16) fun i =>
              if wide then (el c (1024 * q + i)).1
              else if i % 128 < 64 then (el c (64 * (16 * q + i / 128) + i % 128)).1 else 0) vOnes
        ∃ t, exec (.mdrain g fmt acc v) s = .next t
          ∧ Issued s t
              (reg 0 ++ reg 1 ++ reg 2 ++ reg 3
                ++ e.inAll g 4 fun c => .tsr acc ((List.range 4096).foldl (fun b x => b ||| (el c x).2.1) 0))
              (e.flagsOn g fun c => orFlags ((List.range 4096).map fun x => (el c x).2.2))
          ∧ t.me.ke.drFree = e.stepNo + 2)
      ∧ (e.Has v → (∀ c, e.on g c = true → owned c oa) →
        ∃ (t : State) (dat : ClId → VReg), exec (.mfill g oa v tr) s = .next t
          ∧ Issued s t (e.inAll g 2 fun c => .opm oa.toFin (dat c)) (fun _ => 0)
          ∧ ∀ c (j k : Nat), j < 64 → k < 64 →
              elemAt 8 (dat c) (64 * j + k) = elemAt 8 e.cl[c].v[e.phys v] (if tr then 64 * k + j else 64 * j + k))
      ∧ ((∀ c, e.on g c = true → e.cl[c].opmSt[oa.toFin] = .free) →
        ∃ t, exec (.oclaim g oa) s = .next t ∧ Issued s t (e.inAll g 1 fun _ => .opmState oa.toFin .owned) fun _ => 0)
      ∧ ((∀ c, e.on g c = true → ¬ owned c oa) → (∃ c, e.on g c = true ∧ e.cl[c].opmSt[oa.toFin] = .releasing) →
          exec (.oclaim g oa) s = .next s)
      ∧ (∃ t, exec (.orel g oa) s = .next t
          ∧ Issued s t (((e.active g).filter fun c => decide (owned c oa)).map fun c =>
              ⟨c, e.stepNo + 1, .opmState oa.toFin .free⟩) fun _ => 0))
  ∧ (∀ (fmt : BitVec 3) (c : Nat), c < 2 ^ 32 →
      let f : FFmt := if fmt = 1 then bf16 else fp16
      (fmt = 0 → fp32.finite c → fp32.val (drainElem fmt c).1 = fp32.val c ∧ (drainElem fmt c).2 = (0, 0))
      ∧ ((fmt = 1 ∨ fmt = 2) → fp32.finite c →
          (f.fits (fp32.val c) → f.Rounds .rne (fp32.val c) (drainElem fmt c).1 ∧ (drainElem fmt c).2.1 = 0)
          ∧ (f.top + pow2 (f.qmin + 2 ^ f.eb - 4) ≤ fp32.val c → (drainElem fmt c).1 = f.infCode false
              ∧ (drainElem fmt c).2.1 = 4))
      ∧ ((fmt = 1 ∨ fmt = 2) → (fp32.decode c).isNan = true → (drainElem fmt c).1 = f.nanCode ∧ (drainElem fmt c).2.1 = 1)
      ∧ ((fmt = 1 ∨ fmt = 2) → (fp32.decode c).isInf = true → (drainElem fmt c).2.1 = 2)
      ∧ (fmt = 3 → (drainElem fmt c).1 = c)
      ∧ (4 ≤ fmt.toNat → intVal 16 true (drainElem fmt c).1 = Max.max (-32768) (Min.min 32767 (intVal 32 true c))
          ∧ ((drainElem fmt c).2.1 = 4 ↔ intVal 32 true c < -32768 ∨ 32767 < intVal 32 true c)))
  ∧ (∀ (oa : BitVec 5) (c : ClId) (l : List (Nat × MmaRun)) (s : State),
      let e := s.me.ke
      let out (r : MmaRun) : Nat := r.t0 + if r.fa = 8 then 16 else 8
      e.infl = l.map (fun x => ⟨c, x.1, .mma x.2⟩) → l ≠ [] →
      (∀ x ∈ l, (x.2.oa = oa ∨ x.2.ob = oa) ∧ e.stepNo < out x.2) →
      (∀ x : ClId, e.cl[x].opmSt[oa.toFin] = .owned ↔ x = c) →
      ∃ t n, exec (.orel 0 oa) s = .next t ∧ (∀ x ∈ l, out x.2 ≤ n) ∧ (∃ x ∈ l, out x.2 = n)
        ∧ Issued s t [⟨c, e.stepNo + 1, .opmState oa.toFin .releasing⟩, ⟨c, n, .opmState oa.toFin .free⟩] fun _ => 0)
  ∧ (∀ (g : Guard) (s : State),
      let e := s.me.ke
      e.Settled →
      (e.lent = false → ∃ t, exec (.lend g 3) s = .next t ∧ Issued s t [⟨0, e.stepNo + 1, .lend true⟩] fun _ => 0)
      ∧ (e.lent = true → exec (.lend g 3) s = .next (kernelFault s s.cur cKernelLendBusy))
      ∧ (e.lent = true → e.rep = none →
          ∃ t, exec (.recallBank g 3) s = .next t ∧ Issued s t [⟨0, e.stepNo + 1, .lend false⟩] fun _ => 0)
      ∧ (e.lent = true → ∀ r n, e.rep = some r → r.k ≤ n → n < r.n → 4 ≤ r.acc.toNat + (if r.iacc then n else 0) →
          exec (.recallBank g 3) s = .next (kernelFault s s.cur cKernelLendBusy))
      ∧ (e.lent = false → ∃ t, exec (.recallBank g 3) s = .next t ∧ Issued s t [] fun _ => 0))

/-- R339 to R341, R343, R389 to R391: unpack and pack. Element `part * N + i` of the narrow register is element `i` of the
wide one; pack writes its part of the register only. R117, R118, R122 to R125, R340, R390: what pack and unpack make of
one finite element: the value, divided by its scale when there is one, rounded once to nearest into the narrow format,
or the greatest value of its sign beyond it (for E5M2 an infinity); for SB4 the nearest of the grid and the spare;
unpacked, the value of the code times its scale, rounded once. R342, R354, R355: the scale registers: pscale writes the
scale of each block of 32 elements of the part, with the spare byte for SB4; scld takes a row of 512 bytes of a
register, scset puts the low byte of LIT in every byte. -/
def Obligations.KernelPacking : Prop :=
  (∀ (g : Guard) (fmt : BitVec 3) (wide : BitVec 2) (vd : BitVec 5) (a : VSrc) (z : BitVec 4) (scl : Bool)
        (part : BitVec 3) (s : State),
      let e := s.me.ke
      let w : Nat := if wide = 0 then 32 else 16
      let n : Nat := 32768 / w
      let x (i : Nat) : Nat := part.toNat * n + i
      let whole : MSel := ⟨false, 0⟩
      let sc (c : ClId) (i : Nat) : Nat × Nat := scaleOf fmt e.cl[c].z[z.toFin] (x i / 32)
      let P (c : ClId) (i : Nat) : Nat := vElem w (srcVal e c 7 w a) i
      let packs (i : Instr) (pitch : Nat) (pos : Nat → Nat × Nat) (f : ClId → Nat → Nat × KF) : Prop :=
        WellFormed i = true → e.Settled → e.Has vd → e.HasSrc a →
        ∃ (t : State) (dat : ClId → VReg), exec i s = .next t
          ∧ IssuedWith s t
              (e.inAll g 3 fun c => .vreg (e.phys vd) (dat c)
                (BitVec.ofNat 32768 (2 ^ (n * pitch) - 1) <<< (part.toNat * n * pitch)))
              (e.flagsOn g fun c => orFlags ((List.range n).map fun j => (f c j).2))
              (e.latched (e.on g) w [(7, a)]) e.qs
          ∧ ∀ (c : ClId) (j : Nat), j < n →
              ((dat c).extractLsb' (pos (x j)).1 (pos (x j)).2).toNat = (f c j).1 % 2 ^ (pos (x j)).2
      VecDone (.unpk g fmt wide vd a z scl part) s g 2 w vd whole 32 [(6, a)]
          (fun c i => unpkElem fmt wide scl (sc c i) (narrowElem fmt (srcVal e c 6 32 a) (x i)))
      ∧ VecDone (.unpki g fmt wide vd a part) s g 2 w vd whole 32 [(6, a)]
          (fun c i => (((elemAt 8 (srcVal e c 6 32 a) (x i)).signExtend 32).toNat % 2 ^ w, 0))
      ∧ packs (.pack g fmt wide vd a z scl part) (if fmt = 4 then 4 else 8) (narrowPos fmt)
          (fun c i => packElem fmt scl (sc c i) ((wideFmt wide).decode (P c i)))
      ∧ packs (.packi g fmt wide vd a part) (if fmt = 0 then 16 else 8)
          (fun k => if fmt = 0 then (16 * k, 16) else (8 * k, 8))
          (fun c i => intFit (if fmt = 0 then 16 else 8) true true 0x20 (intVal w true (P c i))))
  ∧ (∀ (fmt : BitVec 3) (wide : BitVec 2) (scl neg : Bool) (m : Nat) (e : Int) (sc : Nat × Nat) (code : Nat),
      let x : NumVal := .fin neg m e
      let h := narrowFmt fmt
      let w := wideFmt wide
      let y : Rat := x.val * if scl then pow2 (127 - (sc.1 : Int)) else 1
      let r := packElem fmt scl sc x
      let u := unpkElem fmt wide scl sc code
      let from_ : Rat := (narrowNum fmt sc code).val * if scl then pow2 ((sc.1 : Int) - 127) else 1
      (scl = true → blockNan fmt sc = false) →
      (fmt.toNat < 4 → h.fits y → h.Rounds .rne y r.1 ∧ (r.2 &&& fNX ≠ 0 ↔ h.val r.1 ≠ y))
      ∧ (fmt.toNat < 4 → fmt ≠ 1 → h.top < y → r.1 = h.maxCode)
      ∧ (fmt.toNat < 4 → fmt ≠ 1 → y < -h.top → r.1 = h.maxCode + h.signBit)
      ∧ (fmt = 1 → h.top + pow2 (h.qmin + 2 ^ h.eb - 4) ≤ y → r.1 = h.infCode false)
      ∧ (fmt = 4 → scl = true → r.1 < 16 ∧ (∀ d, d < 16 →
            gap (sb4Num r.1 sc.2).val y ≤ gap (sb4Num d sc.2).val y)
          ∧ (r.2 &&& fNX ≠ 0 ↔ (sb4Num r.1 sc.2).val ≠ y))
      ∧ (code < 2 ^ narrowW fmt → fmt.toNat ≤ 4 → (narrowNum fmt sc code).isFin = true → w.fits from_ →
          w.Rounds .rne from_ u.1))
  ∧ (∀ (g : Guard) (fmt : BitVec 3) (wide : BitVec 2) (a : VSrc) (z : BitVec 4) (part row : BitVec 3) (vs : BitVec 5)
        (s : State),
      let e := s.me.ke
      let w : Nat := if wide = 0 then 32 else 16
      let nb : Nat := 1024 / w
      let blk (c : ClId) (b : Nat) : List NumVal :=
        (List.range 32).map fun j => (wideFmt wide).decode (vElem w (srcVal e c 7 w a) (32 * b + j))
      e.Settled →
      (WellFormed (.pscale g fmt wide a z part) = true → e.HasSrc a →
        ∃ (t : State) (dat msk : ClId → ZReg), exec (.pscale g fmt wide a z part) s = .next t
          ∧ IssuedWith s t (e.inAll g 3 fun c => .zreg z.toFin (dat c) (msk c))
              (e.flagsOn g fun c => orFlags ((List.range nb).map fun b => (pscaleOf fmt (blk c b)).2.2))
              (e.latched (e.on g) w [(7, a)]) e.qs
          ∧ (fmt ≠ 4 → ∀ (c : ClId) (b : Nat), b < nb →
              zByte (dat c) (part.toNat * nb + b) = (pscaleOf fmt (blk c b)).1 % 256)
          ∧ (fmt = 4 → ∀ (c : ClId) (b : Nat), b < nb →
              zByte (dat c) (2 * (part.toNat * nb + b)) = (pscaleOf fmt (blk c b)).1 % 256
              ∧ zByte (dat c) (2 * (part.toNat * nb + b) + 1) = (pscaleOf fmt (blk c b)).2.1 % 256)
          ∧ ∀ (c : ClId) (k : Nat), k < 512 →
              let per : Nat := if fmt = 4 then 2 * nb else nb
              zByte (msk c) k = if part.toNat * per ≤ k ∧ k < (part.toNat + 1) * per then 255 else 0)
      ∧ (e.Has vs → ∃ t, exec (.scld g z vs row) s = .next t
          ∧ Issued s t (e.inAll g 4 fun c =>
              .zreg z.toFin (e.cl[c].v[e.phys vs].extractLsb' (4096 * row.toNat) 4096) (BitVec.allOnes 4096)) fun _ => 0)
      ∧ (∃ (t : State) (dat : ZReg), exec (.scset g z) s = .next t
          ∧ Issued s t (e.inAll g 1 fun _ => .zreg z.toFin dat (BitVec.allOnes 4096)) (fun _ => 0)
          ∧ ∀ k : Nat, k < 512 → zByte dat k = e.lit.toNat % 256))

/-- R66, R72, R364, R365, R371, R372: tiles. A read takes a full tile of the SRF and lands three steps later; a write lands
in the SRF two steps later; a cursor moves on by 0x8000 and wraps in its binding. A read of a tile with an empty line
freezes the engine. R73, R364, R365, R371, R372: an unbound cursor, a tile beyond the allocation, an offset that is not
tile-aligned and a bank of another cluster fault, in place of the whole bundle. -/
def Obligations.KernelTiles : Prop :=
  (∀ (g : Guard) (vd ar : BitVec 5) (q : BitVec 3) (l : Bool) (a : VSrc) (s : State),
      let e := s.me.ke
      let b := e.bind[q.toFin]
      let cur (c : ClId) : Nat := e.cl[c].q[q.toFin].toNat
      let at_ (c : ClId) : Nat := ((if ar = 31 then BitVec.ofNat 32 c.val else e.cl[c].a[ar.toFin]) + if l then e.lit else 0).toNat
      let moved (c : ClId) : Vector (BitVec 23) 8 :=
        if e.on g c then
          e.cl[c].q.set q.toFin
            (if cur c + 0x8000 ≥ b.base.toNat + (b.lm1.toNat + 1) * 0x8000 then BitVec.ofNat 23 (b.base.toNat + c.val * 0x1000)
              else e.cl[c].q[q.toFin] + 0x8000)
        else e.cl[c].q
      let acts (c : ClId) : Prop := e.on g c = true
      let own (c : ClId) : Prop := at_ c % 0x1000 = 0 ∧ at_ c < s.me.alloc ∧ at_ c < 0x80_0000 ∧ at_ c / 0x1000 % 8 = c.val
      let reads (i : Instr) (f : ClId → Nat) (qs : ClId → Vector (BitVec 23) 8) : Prop :=
        ((∀ c, acts c → s.me.tileFull (f c) 32 = true) →
          ∃ t, exec i s = .next t
            ∧ IssuedWith s t (e.inAll g 3 fun c => .vreg (e.phys vd) (s.me.tile (f c) 32) vOnes) (fun _ => 0)
                (fun c => e.cl[c].hold) qs)
        ∧ ((∃ c, acts c ∧ s.me.tileFull (f c) 32 = false) →
          ∃ t, exec i s = .next t ∧ OnlyMe s t ∧ SameMem s t ∧ t.me = { s.me with ke := t.me.ke }
            ∧ t.me.ke = { e with run := t.me.ke.run })
      let writes (i : Instr) (f : ClId → SpId × Nat) (qs : ClId → Vector (BitVec 23) 8) : Prop :=
        ∃ t, exec i s = .next t
          ∧ IssuedWith s t (e.inAll g 2 fun c => .srf (f c).1 (f c).2 (srcVal e c 8 32 a)) (fun _ => 0)
              (e.latched (e.on g) 32 [(8, a)]) qs
      e.Settled →
      (b.valid = true → (∀ c, acts c → cur c < s.me.alloc) →
        (e.Has vd → reads (.srd g vd q) cur moved)
        ∧ (WellFormed (.swr g a q) = true → e.HasSrc a → writes (.swr g a q) (fun c => (s.cur, cur c)) moved)
        ∧ (WellFormed (.sfill g a q) = true → writes (.sfill g a q) (fun c => (s.cur, cur c)) moved))
      ∧ ((∀ c, acts c → own c) →
        (e.Has vd → reads (.srdx g vd ar l) at_ e.qs)
        ∧ (WellFormed (.swrx g a ar l) = true → e.HasSrc a → writes (.swrx g a ar l) (fun c => (s.cur, at_ c)) e.qs))
      ∧ (∀ f : ClId → SpId × Nat, WellFormed (.swra g a ar l) = true → e.HasSrc a →
          (∀ c, acts c → at_ c % 0x1000 = 0 ∧ s.fDecode s.cur (at_ c) = .srf (f c).1 (f c).2
            ∧ (ownRange s.me (at_ c) = true → at_ c / 0x1000 % 8 = c.val)) →
          writes (.swra g a ar l) f e.qs))
  ∧ (∀ (vd ar : BitVec 5) (q : BitVec 3) (l : Bool) (c : ClId) (g : Guard) (s : State),
      let e := s.me.ke
      let cur : Nat := e.cl[c].q[q.toFin].toNat
      let at_ : Nat := ((if ar = 31 then BitVec.ofNat 32 c.val else e.cl[c].a[ar.toFin]) + if l then e.lit else 0).toNat
      let bad (i : Instr) (k : Cause) : Prop := exec i s = .next (kernelFault s s.cur k)
      e.Settled → e.Has vd → (∀ x, e.on g x = true ↔ x = c) →
      (e.bind[q.toFin].valid = false → bad (.srd g vd q) cKernelCursorUnbound)
      ∧ (e.bind[q.toFin].valid = true → s.me.alloc ≤ cur → bad (.srd g vd q) cFSpaceHole)
      ∧ (at_ % 0x1000 ≠ 0 → bad (.srdx g vd ar l) cFMisaligned)
      ∧ (at_ % 0x1000 = 0 → (0x80_0000 ≤ at_ ∨ at_ / 0x1000 % 8 ≠ c.val) → bad (.srdx g vd ar l) cKernelBankForeign)
      ∧ (at_ % 0x1000 = 0 → at_ < 0x80_0000 → at_ / 0x1000 % 8 = c.val → s.me.alloc ≤ at_ →
          bad (.srdx g vd ar l) cFSpaceHole))

/-- R91, R413 to R415, R417 to R420: the exchange slot reads its source in every cluster; a cluster whose guard is true
receives what the operation gives it, and there alone a source loads its hold latch. -/
def Obligations.KernelExchange : Prop :=
  ∀ (g : Guard) (vd as ad : BitVec 5) (a : VSrc) (pat : BitVec 8) (k op : BitVec 4) (cl : BitVec 3) (fmt : BitVec 3)
      (sh : BitVec 4) (circ bcast : Bool) (s : State),
    let e := s.me.ke
    let S (c : ClId) : VReg := srcVal e c 9 32 a
    let reg (c : ClId) (n : Nat) : W32 := if n = 31 then BitVec.ofNat 32 c.val else e.cl[c].a[(Fin.ofNat 32 n)]
    let done (i : Instr) (lat w : Nat) (f : ClId → Landing) (fl : ClId → KF) : Prop :=
      WellFormed i = true →
      ∃ t, exec i s = .next t ∧ IssuedWith s t (e.inAll g lat f) fl (e.latched (e.on g) w [(9, a)]) e.qs
    let moves (i : Instr) (f : ClId → VReg) : Prop := done i 6 32 (fun c => .vreg (e.phys vd) (f c) vOnes) fun _ => 0
    e.Settled → e.HasSrc a →
    (e.Has vd →
      moves (.xperm g vd a pat) (fun c =>
        if pat.toNat < 8 then S (Fin.ofNat 8 (c.val ^^^ pat.toNat)) else S (Fin.ofNat 8 ((reg c (pat.toNat % 32)).toNat % 8)))
      ∧ moves (.xbcast g vd a cl) (fun _ => S cl.toFin)
      ∧ moves (.xshift g vd a sh circ) (fun c =>
          let o : Int := c.val - sh.toInt
          if 0 ≤ o ∧ o < 8 then S (Fin.ofNat 8 o.toNat)
          else if circ then S (Fin.ofNat 8 ((o + 8) % 8).toNat) else 0)
      ∧ (let r (i : Nat) : Nat × KF :=
          reduce op (laneFmt fmt) ((e.active g).map fun c => vElem (fmtW fmt) (srcVal e c 9 (fmtW fmt) a) i)
        done (.xred g op fmt vd a) 6 (fmtW fmt)
          (fun _ => .vreg (e.phys vd) (ofElems (fmtW fmt) fun i => (r i).1) vOnes)
          (e.flagsOn g fun _ => orFlags ((List.range (nElems (fmtW fmt))).map fun i => (r i).2)))
      ∧ (∃ t, exec (.xput g vd as bcast) s = .next t
          ∧ Issued s t (e.inAll g 2 fun c => .vreg (e.phys vd)
              (ofLanes fun i => if bcast then reg c as.toNat
                else if i < 8 then reg (Fin.ofNat 8 i) as.toNat else 0) vOnes) fun _ => 0))
    ∧ done (.xget g ad a cl) 2 32 (fun _ => .areg ad.toFin (elemAt 32 (S cl.toFin) 0)) fun _ => 0

/-- R91, R93, R96, R98, R104, R108, R320, R326, R327, R329, R334: what makes a slot op fault in place of its bundle. R98:
with KCHK on, reading a scalar that a result in flight will still write, and starting a result that would land before an
earlier one of the same destination, fault KERNEL_STALL_SHORT; with KCHK off the op issues and reads the old value. -/
def Obligations.KernelFaults : Prop :=
  (∀ (g : Guard) (fmt acc : BitVec 3) (oa v vd ad a1 : BitVec 5) (fa fb za zb : BitVec 4) (tr : Bool) (s : State),
      let e := s.me.ke
      let bad (i : Instr) (k : Cause) : Prop := exec i s = .next (kernelFault s s.cur k)
      let zero : VSrc := ⟨false, 34⟩
      let owned (c : ClId) (o : BitVec 5) : Prop := e.cl[c].opmSt[o.toFin] = .owned
      e.infl = [] →
      (e.Has vd → e.stepNo < e.vbFree → bad (.vmov g fmt vd zero ⟨false, 0⟩) cKernelSlotBusy)
      ∧ (e.Has vd → e.stepNo < e.xsFree → bad (.xbcast g vd zero 0) cKernelSlotBusy)
      ∧ (e.stepNo < e.mulFree → (e.lent = true ∨ acc.toNat < 4) → (∀ c, e.on g c = true → owned c oa) →
          bad (.mma g fa fb acc oa oa za zb) cKernelSlotBusy)
      ∧ (¬ e.Has vd → bad (.vand g 3 vd zero zero ⟨false, 0⟩) cKernelBankLent)
      ∧ (e.lent = false → 4 ≤ acc.toNat → bad (.mzero g acc) cKernelAccAbsent)
      ∧ (e.Has v → (∃ c, e.on g c = true ∧ ¬ owned c oa) → bad (.mfill g oa v tr) cKernelOpmUnclaimed)
      ∧ ((∃ c, e.on g c = true ∧ owned c oa) → bad (.oclaim g oa) cKernelOpmClaimed))
  ∧ (∀ (c : ClId) (ad a1 : BitVec 5) (imm : BitVec 14) (land : Nat) (x : W32) (s : State),
      let e := s.me.ke
      e.infl = [⟨c, land, .areg a1.toFin x⟩] → a1 ≠ 31 →
      (e.chk = true → e.stepNo < land →
          exec (.aaddi 0 ad a1 imm) s = .next (kernelFault s s.cur cKernelStallShort))
      ∧ (e.chk = true → e.stepNo + 1 < land → exec (.ali 0 a1) s = .next (kernelFault s s.cur cKernelStallShort))
      ∧ (e.chk = false → ∃ t, exec (.aaddi 0 ad a1 imm) s = .next t
          ∧ Issued s t (e.inAll 0 1 fun k => .areg ad.toFin (e.cl[k].a[a1.toFin] + imm.signExtend 32)) fun _ => 0))

/-! ## Kernel control, landings, steps -/

/-- R94, R95, R291, R292, R308, R353: jumps, calls and returns choose the next bundle inside the kernel's extent, `1 +
STALL` steps after this one; kend issues no further bundle and ends the kernel, one that had begun to drain too. A
successor outside the extent, a fifth call and a return with an empty stack fault. -/
def Obligations.KernelJumps : Prop :=
  ∀ (target : BitVec 12) (pred stall : BitVec 4) (k : KRun) (s : State),
    let e := s.me.ke
    let on (c : ClId) : Bool := pred = 0 || e.cl[c].p.getLsbD pred.toNat
    let within (n : Nat) : Prop := k.entry.toNat ≤ n ∧ n < k.entry.toNat + k.blk.extent.toNat
    let sets (i : Instr) (x : KEngine) : Prop :=
      ∃ t, exec i s = .next t ∧ OnlyMe s t ∧ SameMem s t ∧ t.me = { s.me with ke := x }
    let goes (i : Instr) (n : BitVec 12) : Prop :=
      sets i { e with run := some { k with kpc := n, due := e.stepNo + 1 + stall.toNat } }
    let bad (i : Instr) (c : Cause) : Prop := exec i s = .next (kernelFault s s.cur c)
    e.infl = [] → e.run = some k →
    (within target.toNat → goes (.jmp target stall) target)
    ∧ (¬ within target.toNat → bad (.jmp target stall) cKrunBindingBad)
    ∧ ((∃ c, on c = true) → within target.toNat → goes (.brp target pred stall) target)
    ∧ ((∀ c, on c = false) → within (k.kpc.toNat + 1) → goes (.brp target pred stall) (k.kpc + 1))
    ∧ (within target.toNat → e.rstack.length < 4 →
        sets (.call target stall) { e with
          rstack := BitVec.ofNat 13 (k.kpc.toNat + 1) :: e.rstack
          run := some { k with kpc := target, due := e.stepNo + 1 + stall.toNat } })
    ∧ (within target.toNat → 4 ≤ e.rstack.length → bad (.call target stall) cKernelRstackOverflow)
    ∧ (∀ b l, e.rstack = b :: l →
        (within b.toNat → sets (.ret stall) { e with
          rstack := l, run := some { k with kpc := b.setWidth 12, due := e.stepNo + 1 + stall.toNat } })
        ∧ (¬ within b.toNat → bad (.ret stall) cKrunBindingBad))
    ∧ (e.rstack = [] → bad (.ret stall) cKernelRstackUnderflow)
    ∧ sets (.kend stall) { e with run := some { k with phase := .ending, nits := none } }

/-- R99, R100, R322, R323: at a loop bundle with passes left, NPS counts down, NIT counts down while it is not 0, the
rotation moves on, and the stage predicates p8 to p15 shift by one, p15 taking in whether a new iteration entered; the
next bundle is the target. Without passes left, the next bundle follows. loop.poll decides the same way when no pre-
emption is asked of the kernel. R101, R215: at a loop.poll with iterations left, a kernel-level pre-emption request
begins a drain: NITS keeps the iterations left with the target and LIT, NIT becomes 0 and NPS the number of stages; from
then on no loop bundle lets an iteration enter: with passes left the rotation moves on and 0 shifts into p15, without
them the kernel stops as at kend. -/
def Obligations.KernelLoops : Prop :=
  (∀ (poll : Bool) (target : BitVec 12) (stall : BitVec 4) (k : KRun) (s : State),
      let i : Instr := if poll then .loopPoll target stall else .loop target stall
      let e := s.me.ke
      let within (n : Nat) : Prop := k.entry.toNat ≤ n ∧ n < k.entry.toNat + k.blk.extent.toNat
      let enter : Bool := decide (e.nit ≠ 0)
      e.infl = [] → e.run = some k → k.nits = none → within target.toNat → within (k.kpc.toNat + 1) →
      (poll = true → drainAsked s s.cur = false) →
      ∃ t, exec i s = .next t ∧ OnlyMe s t ∧ SameMem s t ∧ t.me = { s.me with ke := t.me.ke }
        ∧ (1 < e.nps.toNat →
            t.me.ke = { e with
              cl := t.me.ke.cl, nps := e.nps - 1, nit := (if enter then e.nit - 1 else 0), rot := e.rot + 1
              run := some { k with kpc := target, due := e.stepNo + 1 + stall.toNat } }
            ∧ ∀ c : ClId, t.me.ke.cl[c] = { e.cl[c] with p := t.me.ke.cl[c].p }
              ∧ ∀ b : Nat, b < 16 → t.me.ke.cl[c].p.getLsbD b =
                  (if b < 8 then e.cl[c].p.getLsbD b else if b = 15 then enter else e.cl[c].p.getLsbD (b + 1)))
        ∧ (e.nps.toNat ≤ 1 →
            t.me.ke = { e with run := some { k with kpc := k.kpc + 1, due := e.stepNo + 1 + stall.toNat } }))
  ∧ (∀ (target : BitVec 12) (stall : BitVec 4) (k : KRun) (s : State),
      let e := s.me.ke
      let within (n : Nat) : Prop := k.entry.toNat ≤ n ∧ n < k.entry.toNat + k.blk.extent.toNat
      let does (i : Instr) (x : KEngine) : Prop := ∃ t, exec i s = .next t ∧ OnlyMe s t ∧ SameMem s t
        ∧ t.me = { s.me with ke := { x with cl := t.me.ke.cl } }
        ∧ ∀ c : ClId, t.me.ke.cl[c] = { e.cl[c] with p := t.me.ke.cl[c].p }
          ∧ ∀ b : Nat, b < 16 → t.me.ke.cl[c].p.getLsbD b =
              (if b < 8 ∨ x.rot = e.rot then e.cl[c].p.getLsbD b else if b = 15 then false else e.cl[c].p.getLsbD (b + 1))
      e.infl = [] → e.run = some k → within target.toNat →
      (k.nits = none → (1 < e.nps.toNat ∨ within (k.kpc.toNat + 1)) → drainAsked s s.cur = true → e.nit ≠ 0 →
        let r := { k with kpc := target, nits := some (e.nit, target, e.lit) }
        (1 < e.nst.toNat → does (.loopPoll target stall) { e with
          nit := 0, nps := e.nst.setWidth 40 - 1, rot := e.rot + 1, run := some { r with due := e.stepNo + 1 + stall.toNat } })
        ∧ (e.nst.toNat ≤ 1 → does (.loopPoll target stall) { e with
            nit := 0, nps := e.nst.setWidth 40, run := some { r with phase := .ending } }))
      ∧ (∀ (n : W32) (tg : BitVec 12) (lit : W32) (poll : Bool), k.nits = some (n, tg, lit) →
          let i : Instr := if poll then .loopPoll target stall else .loop target stall
          (1 < e.nps.toNat → does i { e with
            nps := e.nps - 1, rot := e.rot + 1, run := some { k with kpc := target, due := e.stepNo + 1 + stall.toNat } })
          ∧ (e.nps.toNat ≤ 1 → does i { e with run := some { k with kpc := tg, phase := .ending } })))

/-- R102, R332, R351, R352: a repeat prefix whose issues all name slots that are OWNED and accumulators that are there is
accepted: the multiplier's first issue is the bundle's mma, and the rest are still to come. R109, R110, R107, R351: the
engine's other steps: with a bundle above the power limit it counts a freeze and the step counter stands; with the
multiplier alone due, a reissue. -/
def Obligations.KernelRepeat : Prop :=
  (∀ (l n : BitVec 6) (ia ib iacc : Bool) (stall : BitVec 4) (k : KRun) (b : Bundle) (g : Guard) (x : MmaOp) (s : State),
      let e := s.me.ke
      let within (n : Nat) : Prop := k.entry.toNat ≤ n ∧ n < k.entry.toNat + k.blk.extent.toNat
      let owned (c : ClId) (o : BitVec 5) : Prop := e.cl[c].opmSt[o.toFin] = .owned
      e.infl = [] → e.run = some k → s.me.bundleAt k.kpc = .ok b → mmaIn b.ops = some (g, x) →
      within (k.kpc.toNat + 1) → within (k.kpc.toNat + l.toNat) → (0 < l.toNat ∨ 1 < n.toNat) →
      (∀ j : Nat, j < n.toNat →
        x.oa.toNat + (if ia then j else 0) < 32 ∧ x.ob.toNat + (if ib then j else 0) < 32
        ∧ x.acc.toNat + (if iacc then j else 0) < (if e.lent then 6 else 4)
        ∧ ∀ c, e.on g c = true → owned c (x.oa + BitVec.ofNat 5 (if ia then j else 0))
            ∧ owned c (x.ob + BitVec.ofNat 5 (if ib then j else 0))) →
      ∃ t r, exec (.rep l n ia ib iacc stall) s = .next t ∧ OnlyMe s t ∧ SameMem s t
        ∧ t.me.ke = { e with
            run := some { k with kpc := k.kpc + 1, due := e.stepNo + 1 + stall.toNat }, rep := some r }
        ∧ r.k = 1 ∧ r.n = n.toNat ∧ r.len = l.toNat ∧ r.first = k.kpc + 1 ∧ r.ia = ia ∧ r.ib = ib ∧ r.iacc = iacc
        ∧ r.fa = x.fa ∧ r.fb = x.fb ∧ r.acc = x.acc ∧ r.oa = x.oa ∧ r.ob = x.ob ∧ r.za = x.za ∧ r.zb = x.zb
        ∧ ∀ c : ClId, r.on.getLsbD c.val = e.on g c)
  ∧ (∀ (sp : SpId) (s : State),
      (governed s sp = true → ∃ t, exec (.governorFreeze sp) s = .next t
        ∧ (t.sp sp).r.freezes = ((stepStart s sp).sp sp).r.freezes + 1
        ∧ (t.sp sp).ke.stepNo = (s.sp sp).ke.stepNo ∧ t.mem = s.mem)
      ∧ (governed s sp = false → exec (.governorFreeze sp) s = .refused (.notEnabled "GOVERNOR_FREEZE"))
      ∧ (reissueAlone s sp = true → ∃ t, exec (.repReissue sp) s = .next t ∧ t = kernelTurn s sp)
      ∧ (reissueAlone s sp = false → exec (.repReissue sp) s = .refused (.notEnabled "REP_REISSUE")))

/-- R5, R96, R97, R104, R128, R313, R330, R334: what a result does when it lands in its cluster. A write to a31 or p0 is
discarded; a masked write keeps the other bits; an INT8 mma adds the exact dot product mod 2^32 to each element of its
accumulator. R69, R104, R128, R313, R364: what lands for the whole SP. A tile write puts its 4,096 bytes in the SRF and
makes its 32 lines full; lcset sets NST, NIT and NPS and, in every cluster, p15 and p8 to p14; lend and recall change
whose bank 3 is. An INT8 mma raises no flag. R128, R119 to R122, R330: what an mma of floating elements makes of element
(i, j) of its accumulator when it lands. The products of the K elements, each the value of its code times its block
scale, are summed exactly and rounded once to FP32; the sum of that and the accumulator is rounded once again; both to
nearest even. A NaN in the accumulator or among the elements gives the default NaN. Flags are added, never cleared. R97:
on a step, the results that are due land in the order of their issue and are in flight no longer; the others stay. Two
whole writes of one register due on one step leave what was issued later. -/
def Obligations.Landings : Prop :=
  (∀ (r : Fin 32) (d w : VReg) (a : Fin 32) (x : W32) (p : Fin 16) (b : Bool) (m : Fin 8) (md mw : MaskR) (z : Fin 16)
        (zd zw : ZReg) (o : Fin 32) (st : OpmState) (acc : BitVec 3) (run : MmaRun) (k : KCluster),
      landCl (.vreg r d w) k = { k with v := k.v.set r ((k.v[r] &&& ~~~w) ||| (d &&& w)) }
      ∧ landCl (.areg a x) k = (if a = 31 then k else { k with a := k.a.set a x })
      ∧ (∀ c : ClId, (landCl (.areg 31 x) k).aGet c 31 = BitVec.ofNat 32 c.val)
      ∧ (∀ j : Fin 16, (landCl (.pred p b) k).pGet j.val = (if j = 0 then true else if j = p then b else k.pGet j.val))
      ∧ landCl (.maskReg m md mw) k = { k with m := k.m.set m ((k.m[m] &&& ~~~mw) ||| (md &&& mw)) }
      ∧ landCl (.zreg z zd zw) k = { k with z := k.z.set z ((k.z[z] &&& ~~~zw) ||| (zd &&& zw)) }
      ∧ landCl (.opm o d) k = { k with opm := k.opm.set o d }
      ∧ landCl (.opmState o st) k = { k with opmSt := k.opmSt.set o st }
      ∧ (acc.toNat < 6 →
          (landCl (.accZero acc) k).accGet acc = 0
          ∧ (∀ h : acc.toNat < 6, (landCl (.accZero acc) k).tsr[acc.toNat] = 0)
          ∧ ∀ y : BitVec 3, ∀ h : acc.toNat < 6, (landCl (.tsr acc y) k).tsr[acc.toNat] = k.tsr[acc.toNat] ||| y)
      ∧ (run.acc.toNat < 6 → run.fa = 7 → ∀ i j : Nat, i < 64 → j < 64 →
          let dot : Int := ((List.range 64).map fun q =>
            ((run.capA.extractLsb' (512 * i + 8 * q) 8).toInt * (run.capB.extractLsb' (512 * j + 8 * q) 8).toInt)).sum
          let old : Int := (elemAt 32 (k.accGet run.acc) (64 * i + j)).toInt
          elemAt 32 ((landCl (.mma run) k).accGet run.acc) (64 * i + j) = BitVec.ofInt 32 (old + dot)))
  ∧ (∀ (sp t : SpId) (off at_ : Nat) (c : ClId) (d : VReg) (n : W32) (st : BitVec 8) (on : Bool) (r : MmaRun) (k : KCluster)
        (s : State),
      let e := (s.sp sp).ke
      let a := landOne s sp ⟨c, at_, .srf t off d⟩
      let b := landOne s sp ⟨c, at_, .lcset n st⟩
      (off % 4096 = 0 → off + 4096 ≤ 2 ^ 23 →
        (∀ j : Nat, j < 4096 → (a.sp t).fByte (off + j) = d.extractLsb' (8 * j) 8 ∧ (a.sp t).full (off + j) = true)
        ∧ (∀ f, (f < off ∨ off + 4096 ≤ f) → (a.sp t).fByte f = (s.sp t).fByte f ∧ (a.sp t).full f = (s.sp t).full f)
        ∧ a.sp t = { s.sp t with srf := (a.sp t).srf, fe := (a.sp t).fe }
        ∧ a = { s with sps := a.sps } ∧ ∀ i, i ≠ t → a.sp i = s.sp i)
      ∧ (b = { s with sps := b.sps } ∧ (∀ i, i ≠ sp → b.sp i = s.sp i)
        ∧ b.sp sp = { s.sp sp with ke := { e with
            cl := (b.sp sp).ke.cl, nst := st, nit := (if n = 0 then 0 else n - 1)
            nps := (if n = 0 then 1 else BitVec.ofNat 40 (n.toNat + st.toNat - 1)) } }
        ∧ ∀ x : ClId, (b.sp sp).ke.cl[x] = { e.cl[x] with p := (b.sp sp).ke.cl[x].p }
          ∧ ∀ j : Nat, j < 16 → (b.sp sp).ke.cl[x].p.getLsbD j =
              (if j < 8 then e.cl[x].p.getLsbD j else if j = 15 then decide (n ≠ 0) else false))
      ∧ landOne s sp ⟨c, at_, .lend on⟩ = s.modSp sp (fun p => { p with ke := { p.ke with lent := on } })
      ∧ (r.fa = 7 → (landCl (.mma r) k).kflags = k.kflags))
  ∧ (∀ (r : MmaRun) (k : KCluster) (i j : Nat), i < 64 → j < 64 → r.acc.toNat < 6 →
      let bits (f : BitVec 4) : Nat := if f ≤ 1 then 16 else if f ≤ 3 then 8 else if f ≤ 5 then 6 else if f = 6 then 4 else 32
      let fmt (f : BitVec 4) : FFmt :=
        if f = 0 then bf16 else if f = 1 then fp16 else if f = 2 then e4m3 else if f = 3 then e5m2 else if f = 4 then e3m2
        else if f = 5 then e2m3 else fp32
      let code (f : BitVec 4) (d : VReg) (n q : Nat) : Nat := (d.extractLsb' (512 * n + bits f * q) (bits f)).toNat
      let byte (z : ZReg) (b : Nat) : Nat := (z.extractLsb' (8 * b) 8).toNat
      let x (f : BitVec 4) (d : VReg) (z : ZReg) (n q : Nat) : NumVal :=
        if f = 6 then sb4Num (code f d n q) (byte z (8 * n + 2 * (q / 32) + 1)) else (fmt f).decode (code f d n q)
      let scale (f : BitVec 4) (z : ZReg) (n q : Nat) : Nat :=
        if 2 ≤ f ∧ f ≤ 5 then byte z (2 * n + q / 32) else if f = 6 then byte z (8 * n + 2 * (q / 32)) else 127
      let v (f : BitVec 4) (d : VReg) (z : ZReg) (n q : Nat) : Rat := (x f d z n q).val * pow2 ((scale f z n q : Int) - 127)
      let bad (f : BitVec 4) (z : ZReg) (n q : Nat) : Prop :=
        scale f z n q = 0xFF ∨ f = 6 ∧ (e4m3.decode (byte z (8 * n + 2 * (q / 32) + 1))).isNan = true
      let num (f : BitVec 4) (d : VReg) (z : ZReg) (n q : Nat) : Prop := ¬ bad f z n q ∧ (x f d z n q).isFin = true
      let qs := List.range (if r.fa ≤ 1 then 32 else if r.fa = 6 then 128 else if r.fa = 8 then 16 else 64)
      let dot : Rat := (qs.map fun q => v r.fa r.capA r.sa i q * v r.fb r.capB r.sb j q).sum
      let old := (elemAt 32 (k.accGet r.acc) (64 * i + j)).toNat
      let t := landCl (.mma r) k
      let new := (elemAt 32 (t.accGet r.acc) (64 * i + j)).toNat
      (r.fa.toNat ≤ 6 ∧ r.fb.toNat ≤ 6 ∨ r.fa = 8 ∧ r.fb = 8) →
      ((∀ q ∈ qs, num r.fa r.capA r.sa i q ∧ num r.fb r.capB r.sb j q) → fp32.finite old → fp32.fits dot →
        ∃ c, fp32.Rounds .rne dot c
          ∧ (fp32.fits (fp32.val old + fp32.val c) → fp32.Rounds .rne (fp32.val old + fp32.val c) new
            ∧ (fp32.val c ≠ dot ∨ fp32.val new ≠ fp32.val old + fp32.val c → t.kflags &&& fNX ≠ 0)))
      ∧ ((fp32.decode old).isNan = true ∨ (∃ q ∈ qs, (x r.fa r.capA r.sa i q).isNan = true) → new = fp32.nanCode)
      ∧ ((fp32.decode old).isSNan = true ∨ (∃ q ∈ qs, bad r.fa r.sa i q
          ∨ (r.fa ≤ 1 ∨ r.fa = 8) ∧ (x r.fa r.capA r.sa i q).isSNan = true) → new = fp32.nanCode ∧ t.kflags &&& fNV ≠ 0)
      ∧ k.kflags &&& t.kflags = k.kflags)
  ∧ (∀ (sp : SpId) (s : State),
      let e := (s.sp sp).ke
      ((landDue s sp).sp sp).ke.infl = e.infl.filter (fun f => decide (e.stepNo < f.land))
      ∧ (landDue s sp).mem = s.mem ∧ ((landDue s sp).sp sp).ke.stepNo = e.stepNo
      ∧ ∀ (c : ClId) (r : Fin 32) (d1 d2 : VReg) (n1 n2 : Nat), n1 ≤ e.stepNo → n2 ≤ e.stepNo →
          e.infl = [⟨c, n1, .vreg r d1 vOnes⟩, ⟨c, n2, .vreg r d2 vOnes⟩] →
          ((landDue s sp).sp sp).ke.cl[c].v[r] = d2)

/-- R93 to R97, R107 to R109, R308: a bundle of one slot op and no CTL element, due on this step, below the power limit,
with its successor in the extent (after index 4,095, index 0) and nothing that holds it, does what the op does alone in
the state after the step's landings, with the bundle's literal; then the successor is due `1 + STALL` steps later and
the step counter moves on. -/
def Obligations.BundleRuns : Prop :=
  ∀ (k : KRun) (b : Bundle) (i : Instr) (s : State),
    let s1 := stepStart s s.cur
    let s2 := setLit s1 s.cur b.lit
    let e := s2.me.ke
    let st := stageOf i s2 s.cur
    s1.me.ke.run = some k → k.phase = .issuing → k.due ≤ e.stepNo → e.rep = none →
    s1.me.bundleAt k.kpc = .ok b → b.ops = [i] → b.ctl = none →
    k.entry.toNat ≤ (k.kpc.toNat + 1) % 4096 → (k.kpc.toNat + 1) % 4096 < k.entry.toNat + k.blk.extent.toNat →
    st.allFaults e = [] → st.lineHeld s2.me = false → st.allowHeld s2.me = false → st.claimHeld e = false →
    e.win.sum + st.weight ≤ governorLimit s2 s.cur →
    (st.commit s2 s.cur).isSome = true →
    ∃ t, exec i s2 = .next t
      ∧ kernelTurn s s.cur = endStep (t.modKe s.cur fun x =>
          { x with run := x.run.map fun r => { r with kpc := k.kpc + 1, due := e.stepNo + 1 + b.stall.toNat } })
          s.cur st.weight

/-! ## Encoding -/

/-- R222, R256 to R268: words written out from the encoding tables stand for the instructions they name; a reserved opcode
and a reserved field are refused. -/
def Obligations.WordsDecode : Prop :=
  decodeScp 0x400C_4000_9600_0010 = .ok (.ldg ⟨2, 1, 3, 0⟩ 3 4 16)
  ∧ decodeScp 0x4414_61C0_F600_0000 = .ok (.amog ⟨3, 3, 3, 0⟩ 0 5 6 7 0)
  ∧ decodeScp 0x4100_61C0_EA00_0008 = .ok (.stg ⟨3, 2, 5, 0⟩ 6 7 8)
  ∧ decodeScp 0x180C_4140_0000_0000 = .ok (.xor 3 4 5)
  ∧ decodeScp 0x2120_0000_0000_0008 = .ok (.li 8 8)
  ∧ decodeEqx 0x00C5_850B = .ok (.qfetch ⟨10, 11, 12⟩)
  ∧ decodeEqx 0x0073_128B = .ok (.bfext ⟨5, 6, 7⟩)
  ∧ decodeEqx 0x00C5_A50B = .ok (.sigwait ⟨10, 11, 12⟩)
  ∧ decodeEqx 0x0005_B50B = .ok (.dispatch 10 11)
  ∧ decodeEqx 0x00C5_D50B = .ok (.qload ⟨10, 11, 12⟩)
  ∧ decodeEqx 0x00C5_C50B = .ok (.qsave ⟨10, 11, 12⟩)
  ∧ decodeSlot encodeVa candidateVa 0x1000_2C14_2080_0000 = .ok (some (.vfma 0 0 0 5 ⟨true, 1⟩ ⟨false, 33⟩ ⟨false, 2⟩ ⟨false, 0⟩))
  ∧ decodeSlot encodeVb candidateVb 0x30_0141_0000_0300 = .ok (some (.vtopk 0 0 10 ⟨false, 4⟩ ⟨false, 0⟩ ⟨false, 0⟩ 3 false))
  ∧ decodeSlot encodeMx candidateMx 0x0404_4443_4500 = .ok (some (.mma 0 2 2 1 2 3 4 5))
  ∧ decodeSlot encodeUp candidateUp 0x04_0030_2390 = .ok (some (.unpk 0 0 0 6 ⟨false, 2⟩ 3 true 1))
  ∧ decodeSlot encodePk candidatePk 0x04_0030_2390 = .ok (some (.pack 0 0 0 6 ⟨false, 2⟩ 3 true 1))
  ∧ decodeSlot encodeSc candidateSc 0x0406_2200 = .ok (some (.scld 0 3 2 1))
  ∧ decodeSlot encodeSi candidateSi 0x08_0304_8000 = .ok (some (.srdx 0 3 4 true))
  ∧ decodeSlot encodeSo candidateSo 0x04_0148_0000 = .ok (some (.swr 0 ⟨false, 5⟩ 1))
  ∧ decodeSlot encodeXs candidateXs 0x04_00A1_0040 = .ok (some (.xperm 0 5 ⟨false, 4⟩ 1))
  ∧ decodeSlot encodeSa candidateSa 0x0409_4020_0000 = .ok (some (.aadd 0 9 8 0 true))
  ∧ decodeScp 0xFF00_0000_0000_0000 = .error .reservedOpcode
  ∧ decodeScp 0x180C_4140_0000_0001 = .error .reservedField

/-- R257, R262: every well-formed instruction that has an encoding, with every operand at every value the encoding admits,
is what its word decodes to. rep stands beside an mma. R94, R102, R267: a bundle that holds an mma and a repeat prefix
decodes to the two, with the prefix's STALL and the literal. R3, R257, R262 to R267: a word that decodes is the encoding
of a well-formed instruction: no bit of it is ignored and no reserved value is taken. In a bundle that decodes, every op
is well-formed, the CTL element is what its field encodes, and no other bundle decodes to the same ops, element, STALL
and literal. -/
def Obligations.RoundTrip : Prop :=
  (∀ (i : Instr) (x : Encoded),
      WellFormed i = true → encode i = some x → (∀ l n ia ib iacc st, i ≠ .rep l n ia ib iacc st) → decode x = some i)
  ∧ (∀ (g : Guard) (fa fb : BitVec 4) (acc : BitVec 3) (oa ob : BitVec 5) (za zb : BitVec 4) (l n : BitVec 6)
        (ia ib iacc : Bool) (st : BitVec 4) (lit : W32) (m : BitVec 48) (c : BitVec 32),
      let mm : Instr := .mma g fa fb acc oa ob za zb
      let rp : Instr := .rep l n ia ib iacc st
      WellFormed mm = true → WellFormed rp = true → encodeMx mm = some m → encodeCtl rp = some c →
      decodeBundle { BundleFields.zero with mx := m, ctl := c, lit := lit }.word = .ok ⟨[mm], some rp, st, lit⟩)
  ∧ ((∀ (w : W64) (i : Instr), decodeScp w = .ok i → WellFormed i = true ∧ encodeScp i = some w)
    ∧ (∀ (w : W32) (i : Instr), decodeEqx w = .ok i → WellFormed i = true ∧ encodeEqx i = some w)
    ∧ ∀ (w : BundleWord) (b : Bundle), decodeBundle w = .ok b →
        (∀ i ∈ b.ops, WellFormed i = true) ∧ (∀ i, b.ctl = some i → WellFormed i = true ∧ encodeCtl i = some (fld w 480 32))
        ∧ b.lit = fld w 0 32 ∧ ∀ w', decodeBundle w' = .ok b → w' = w)

/-! ## Steps, the invariant, memory -/

/-- R203, R261: a turn of a running SP fetches the eight bytes at its pc through X of its context and runs the instruction
they encode; bytes that encode none are an illegal instruction. A strand whose store-fault records have been delivered
runs none before they are replayed (R156). R222, R223, R238, R252: a turn of an active Equinox core runs the instruction
at its pc in IMEM: a custom instruction, or one of the base set (log 6), or, for a word that is neither, the illegal-
instruction exception. A pc that is odd or outside IMEM, and an interrupt that is enabled, are taken first; sigwait
answers to the interrupt itself. A device that has accepted no image runs none. Log 2: the other turns of the agenda: a
kernel engine makes one step, a copy channel or a kload goes on, a store in flight is performed, a station grants a
packet, a held request is tried again, a core serves a fetched packet, an event of the device or its surroundings runs.
A module that has powered down (R255) does nothing but a reset. R220, R250: as time passes, the watchdogs of contexts
without work, or in a save, stand; which tasks count as work is log 68. The answer to a NET copy's message is an input
(log 116). -/
def Obligations.StepRuns : Prop :=
  (∀ (s : State) (sp : SpId) (dt : Nat) (l : List Turn) (lf : Leaf) (i : Instr),
      let b : State := { beginTurn s with cur := sp }
      let f := fillTlb b (.sp sp) b.myCtx lf
      let pc := b.me.r.pc.toNat
      let w : W64 := BitVec.ofNat 64 (leNat (b.physRead (lf.pa pc) 8))
      s.agenda = ⟨.scp sp, dt⟩ :: l → s.dev.powered = true → (s.sp sp).run = .running →
      ((s.sp sp).sto.delivered = false ∨ (s.sp sp).sto.records = [] →
        translate b (.sp sp) b.myCtx pc .fetch .scp = .ok lf → poisoned s.dev.poison (lf.pa pc) 8 = false →
        (decodeScp w = .ok i ∨ (∃ e, decodeScp w = .error e) ∧ i = .illegalInstruction w) →
        step s = afterTurn (exec i f))
      ∧ ((s.sp sp).sto.delivered = true → (s.sp sp).sto.records ≠ [] → step s = afterTurn (.next b.deliver)))
  ∧ (∀ (s : State) (core : CoreId) (dt : Nat) (l : List Turn),
      let b : State := { beginTurn s with core := core }
      let c := s.eqx core
      let w : W32 := BitVec.ofNat 32 (memNat c.imem c.pc.toNat 4)
      s.agenda = ⟨.eqx core, dt⟩ :: l → s.dev.powered = true → c.status = .active →
      (s.dev.boot.status = 2 → step s = afterTurn (.next (beginTurn s))) ∧ (s.dev.boot.status ≠ 2 →
      (∀ k, fetchTrap c = some k → step s = afterTurn (.next (b.eqxTrap k c.pc)))
      ∧ (fetchTrap c = none → c.interrupted = true → isSigwait w = false →
          step s = afterTurn (.next (b.eqxTrap 0x8000_0000_0000_000B 0)))
      ∧ (fetchTrap c = none → (c.interrupted = false ∨ isSigwait w = true) →
        (∀ i, decodeEqx w = .ok i → step s = afterTurn (exec i b))
        ∧ (∀ e i, decodeEqx w = .error e → rvDecode w = some i →
            step s = afterTurn (.next (execRv (rvLen w) (rvWord w) i b)))
        ∧ (∀ e, decodeEqx w = .error e → rvDecode w = none → step s = afterTurn (exec (.eqxIllegalInstruction w) b)))))
  ∧ (∀ (s : State) (dt : Nat) (l : List Turn),
      let b := beginTurn s
      let runs (a : Actor) (o : Host.Outcome State Fault Refusal) : Prop :=
        s.agenda = ⟨a, dt⟩ :: l → s.dev.powered = true → step s = afterTurn o
      (∀ sp, runs (.kernel sp) (.next (kernelTurn { b with cur := sp } sp)))
      ∧ (∀ sp ch, runs (.copy sp ch) (.next (copyTurn b sp ch)))
      ∧ (∀ sp, runs (.kload sp) (.next (kloadTurn b sp)))
      ∧ (∀ sp k, runs (.perform sp k) (.next (performWeak b sp k)))
      ∧ (∀ st, runs (.grant st) (.next (grantStation b st)))
      ∧ (∀ k, runs (.held k) (.next (retryHeld b k)))
      ∧ (∀ core ctx qid f i, (s.eqx core).status = .active → s.dev.boot.status ≠ 2 → nextPacket { b with core := core } ctx qid = some f →
          packetInstr f = some i → runs (.serve core ctx qid) (exec i { b with core := core }))
      ∧ (∀ sp ch ok, runs (.netAck sp ch ok) (.next (netAck b sp ch ok)))
      ∧ (∀ core on, runs (.interrupt core on) (.next (b.modEqx core fun c => { c with irq := on })))
      ∧ (∀ i, isEvent i = true → runs (.event i) (exec i b))
      ∧ (∀ a, s.agenda = ⟨a, dt⟩ :: l → s.dev.powered = false → a ≠ .event .reset → step s = .fault .poweredDown)
      ∧ (s.agenda = ⟨.event .reset, dt⟩ :: l → step s = afterTurn (exec .reset b))
      ∧ (∀ x, s.agenda = x :: l → b = passTime x.dt { s with agenda := l, tick := s.tick + 1 })
      ∧ ∃ v : Vector Ctx 64, passTime dt s = { s with time := s.time + dt, ctxs := v }
        ∧ ∀ x : CtxId, v[x] = if hasWork s x && !saving s x then s.ctx x else { s.ctx x with progress := (s.ctx x).progress + dt })

/-- The memory of the state after reset is in its canonical form. The canonical form, and that nothing is listed at reset,
are the model's (log 4). -/
def Obligations.InvAtReset : Prop := Inv State.reset

/-- Every step keeps memory in its canonical form, from every state. The canonical form is the model's (log 4). -/
def Obligations.InvKept : Prop := ∀ s t : State, Inv s → step s = .next t → Inv t

/-- R137, R138: what a memory answers: a byte that has just been written reads as written, any other reads as before; and
two memories in their canonical form that read alike everywhere are equal. The list of bytes and its canonical form are
the model's (log 4). -/
def Obligations.MemoryLaws : Prop :=
  ∀ (m n : List Host.Cell) (a : Nat) (d : List Byte),
    memBytes (memWrite m a d) a d.length = d
    ∧ (∀ x, (x < a ∨ a + d.length ≤ x) → memByte (memWrite m a d) x = memByte m x)
    ∧ (Memory.wf m = true → Memory.wf (memWrite m a d) = true)
    ∧ (Memory.wf m = true → Memory.wf n = true → (∀ x, memByte m x = memByte n x) → m = n)

/-! ## Equinox -/

/-- R222, R289: bfext takes a field of 1 to 64 bits, zero-extended; bits past bit 63 read 0. R345, R346, R226, R227: qfetch
of a slot whose ring holds a whole, well-formed packet with the expected number copies its 64 bytes to the buffer, moves
HEAD on, and returns status 0; an empty ring returns 2 and maps the slot, a FREE or ERRORED slot 3, a torn packet 1, and
the thousandth torn read or a malformed packet 5. A ring that cannot be read returns 4 and the cause. A misaligned
buffer is an access exception. R230, R370: sigwait returns the summary bits that its mask admits and clears them; an
empty mask or a wrong selector returns 0; with no such bit the core waits, and an interrupt that is enabled ends the
wait with 0. R347 to R349, R229, R231: qload maps a good QCB to a FREE slot; qsave writes the slot's QCB, its sequence
number counted up, at the address, and frees the slot. A slot that is not FREE, or not there, refuses a load with 3, a
QCB that is ACTIVE or ERRORED with 2; an ACTIVE slot refuses a save with 1. EPRIO is PRIO plus the intervals since the
last service, at most 7: it is saved so, and cores fetch from the ACTIVE slot of the highest EPRIO, the one served
longest ago on ties. A load or save that meets one bad copy of a table restores it (R239). R42, R298, R299: dispatch of
a record that is not a record of the context is an access exception or returns status 4; a launch that must wait for
walkers returns 1, one that waits for a predecessor 2, neither with a change of any launch, one whose predecessor failed
3, one that is dispatched 0, as the record reads now. A dispatch that meets a page which is not present stays at the
instruction, and when the page cannot be brought returns status 4 with the cause. The model's choices: that a dispatch
which waits does not accept, and the status of a busy ID (log 56). R223: instructions of the base set, by their words:
an addition, a load and a store in HBM4, a taken branch, a call of the environment and a CSR write. The words and the
CSRs are the family's (log 6), addresses in HBM4 are log 93. -/
def Obligations.EquinoxInstructions : Prop :=
  (∀ (r : RArgs) (s : State),
      let lsb := (s.xreg r.rs2).toNat % 64
      let w := (s.xreg r.rs2).toNat / 64 % 64 + 1
      ∃ t v, exec (.bfext r) s = .next t ∧ CoreWrote s t r.rd v ∧ OnlyCore s t
        ∧ v.toNat = (s.xreg r.rs1).toNat / 2 ^ lsb % 2 ^ w)
  ∧ (∀ (r : RArgs) (s : State),
      let a := s.xreg r.rs2
      let n := (s.xreg r.rs1).toNat
      let i : Fin 64 := Fin.ofNat 64 n
      let q := (s.slot i).q
      let ring := q.ring.toNat + 64 * (q.head.toNat % 2 ^ q.log2n.toNat)
      let errs (t : State) : Prop := (t.slot i).q = { q with state := .errored } ∧ t.dev.fetched = s.dev.fetched
      let ends (t : State) (k : Cause) (st : Nat) : Prop :=
        exec (.qfetch r) s = .next t ∧ CoreWrote s t r.rd (BitVec.ofNat 64 (k.toNat * 2 ^ 8 + st)) ∧ errs t
      (a.toNat % 64 ≠ 0 → exec (.qfetch r) s = .next (s.eqxTrap 7 a))
      ∧ (a.toNat % 64 = 0 → a.toNat + 64 ≤ 0xC0_0000_0000 →
        (63 < n → ∃ t, exec (.qfetch r) s = .next t ∧ CoreWrote s t r.rd 3 ∧ OnlyCore s t)
        ∧ (n ≤ 63 → (q.state = .free ∨ q.state = .errored) →
            ∃ t, exec (.qfetch r) s = .next t ∧ CoreWrote s t r.rd 3 ∧ OnlyCore s t)
        ∧ (n ≤ 63 → q.state ≠ .free → q.state ≠ .errored → q.prod = q.head →
            ∃ t, exec (.qfetch r) s = .next t ∧ CoreWrote s t r.rd 2 ∧ (t.slot i).q = { q with state := .mapped }
              ∧ t.mem = s.mem)
        ∧ (∀ k x, n ≤ 63 → q.state ≠ .free → q.state ≠ .errored → q.prod ≠ q.head →
            gRead s .none q.ctx .equinox ring 64 = .error (k, x) → ∃ t, ends t k 4)
        ∧ ∀ b, n ≤ 63 → q.state ≠ .free → q.state ≠ .errored → q.prod ≠ q.head →
            gRead s .none q.ctx .equinox ring 64 = .ok b →
            (packetTorn b (q.head + 1) = false → packetBad b = false →
              ∃ t, exec (.qfetch r) s = .next t ∧ CoreWrote s t r.rd 0
                ∧ t.physRead a.toNat 64 = b ∧ SameMemBut s t a.toNat 64 ∧ t.dev.fetched = s.dev.fetched ++ [⟨q.ctx, q.qid, b⟩]
                ∧ t.slot i = ⟨{ q with
                    head := q.head + 1, svctime := BitVec.ofNat 64 s.time, eprio := q.prio, state := .active }, 0⟩
                ∧ ∀ j, j ≠ i → t.slot j = s.slot j)
            ∧ (packetTorn b (q.head + 1) = true → (s.slot i).retry < 999 →
              ∃ t, exec (.qfetch r) s = .next t ∧ CoreWrote s t r.rd 1
                ∧ t.slot i = ⟨{ q with state := .active }, (s.slot i).retry + 1⟩ ∧ t.mem = s.mem)
            ∧ (packetTorn b (q.head + 1) = true → (s.slot i).retry = 999 → ∃ t, ends t cEqxQpacketBad 5)
            ∧ (packetTorn b (q.head + 1) = false → packetBad b = true →
              ∃ t, exec (.qfetch r) s = .next t ∧ errs t ∧ t.eqxMe.pc = s.eqxMe.pc + 4 ∧ t.xreg 0 = 0
                ∧ (r.rd ≠ 0 → t.xreg r.rd = BitVec.ofNat 64 (cEqxQpacketBad.toNat * 2 ^ 8 + 5))
                ∧ (∀ j, j ≠ r.rd → t.xreg j = s.xreg j)
                ∧ ∃ w ∈ t.eqxMe.log, w.what = (⟨q.ctx, q.qid, b⟩ : Fetched).cmd ∧ w.code = packetCode b ∧ w.done = true)))
  ∧ (∀ (r : RArgs) (s : State),
      let sel := s.xreg r.rs2
      let msk := s.xreg r.rs1
      ((1 < sel.toNat ∨ msk = 0) → ∃ t, exec (.sigwait r) s = .next t ∧ CoreWrote s t r.rd 0 ∧ OnlyCore s t)
      ∧ (sel = 0 → s.slotSum &&& msk ≠ 0 →
          ∃ t, exec (.sigwait r) s = .next t ∧ CoreWrote s t r.rd (s.slotSum &&& msk)
            ∧ t = { s with cores := t.cores, slotSum := s.slotSum &&& ~~~msk })
      ∧ (sel = 1 → s.ctxSum &&& msk ≠ 0 →
          ∃ t, exec (.sigwait r) s = .next t ∧ CoreWrote s t r.rd (s.ctxSum &&& msk)
            ∧ t = { s with cores := t.cores, ctxSum := s.ctxSum &&& ~~~msk })
      ∧ (sel.toNat ≤ 1 → msk ≠ 0 → (if sel = 0 then s.slotSum else s.ctxSum) &&& msk = 0 →
          (s.eqxMe.interrupted = false → exec (.sigwait r) s = .next s)
          ∧ (s.eqxMe.interrupted = true → ∃ t, exec (.sigwait r) s = .next t ∧ CoreWrote s t r.rd 0 ∧ OnlyCore s t)))
  ∧ (∀ (r : RArgs) (s : State),
      let a := s.xreg r.rs2
      let n := (s.xreg r.rs1).toNat
      let i : Fin 64 := Fin.ofNat 64 n
      let b := s.physRead a.toNat 128
      let q := parseQcb b
      let o := (s.slot i).q
      let e (k : Fin 64) : Nat :=
        Min.min 7 ((s.slot k).q.prio.toNat + (s.time - (s.slot k).q.svctime.toNat) / Max.max 1 (ageNs s 0))
      let saved : Qcb := { o with qseq := o.qseq + 1, eprio := BitVec.ofNat 3 (e i) }
      let w := restoreKicks s q.ctx q.qid
      let v := restoreQcb (s.physWrite a.toNat saved.bytes) o.ctx o.qid
      let ret (x : Instr) (v : W64) : Prop := ∃ t, exec x s = .next t ∧ CoreWrote s t r.rd v ∧ OnlyCore s t
      (a.toNat % 128 ≠ 0 → exec (.qload r) s = .next (s.eqxTrap 5 a) ∧ exec (.qsave r) s = .next (s.eqxTrap 7 a))
      ∧ (a.toNat % 128 = 0 → a.toNat + 128 ≤ 0xC0_0000_0000 →
        (63 < n → ret (.qload r) 3 ∧ ret (.qsave r) 3)
        ∧ (n ≤ 63 →
          (o.state ≠ .free → ret (.qload r) 3)
          ∧ (o.state = .free → qcbBad s b = true → ret (.qload r) 4)
          ∧ (o.state = .free → qcbBad s b = false → (q.state = .active ∨ q.state = .errored) → ret (.qload r) 2)
          ∧ (o.state = .free → qcbBad s b = false → q.state ≠ .active → q.state ≠ .errored →
              ∃ t, exec (.qload r) s = .next t ∧ CoreWrote s t r.rd 0 ∧ t.slot i = ⟨{ q with state := .mapped }, 0⟩
                ∧ (∀ j, j ≠ i → t.slot j = s.slot j) ∧ t.mem = w.mem ∧ (w = s → t.mem = s.mem)
                ∧ t.slotSum.getLsbD n = (((w.ctx q.ctx).pending.getLsbD q.qid.toNat || decide (q.prod ≠ q.head))
                    || s.slotSum.getLsbD n))
          ∧ (o.state = .free → ret (.qsave r) 3)
          ∧ (o.state = .active → ret (.qsave r) 1)
          ∧ ((o.state = .mapped ∨ o.state = .errored) →
              ∃ t, exec (.qsave r) s = .next t ∧ CoreWrote s t r.rd 0 ∧ (t.slot i).q.state = .free
                ∧ (∀ j, j ≠ i → t.slot j = s.slot j) ∧ t.slotSum.getLsbD n = false
                ∧ t.mem = v.mem ∧ (v = s.physWrite a.toNat saved.bytes →
                    t.physRead a.toNat 128 = saved.bytes ∧ SameMemBut s t a.toNat 128))))
      ∧ (∀ k j, nextServed s = some k → slotServed s j = true →
          slotServed s k = true ∧ (s.slot k).q.state = .active ∧ e j ≤ e k
          ∧ (e j = e k → (s.slot k).q.svctime.toNat ≤ (s.slot j).q.svctime.toNat)))
  ∧ (∀ (rd rs1 : BitVec 5) (s : State),
      let x := s.xreg rs1
      let a := x.toNat / 128 % 2 ^ 39 * 128
      let ctx : CtxId := Fin.ofNat 64 x.toNat
      let r := parseLRec (s.physRead a 128)
      let ret (v : Nat) : Prop := ∃ t, exec (.dispatch rd rs1) s = .next t ∧ CoreWrote s t rd (BitVec.ofNat 64 v)
      let waits (v : Nat) : Prop := ∃ t, exec (.dispatch rd rs1) s = .next t ∧ CoreWrote s t rd (BitVec.ofNat 64 v)
        ∧ t.launches = s.launches ∧ t.dies = s.dies ∧ t.mem = s.mem
      ((x.toNat / 2 ^ 46 ≠ 0 ∨ x.toNat / 64 % 2 = 1 ∨ 0xC0_0000_0000 < a + 128) →
          exec (.dispatch rd rs1) s = .next (s.eqxTrap 5 x))
      ∧ (x.toNat / 2 ^ 46 = 0 → x.toNat / 64 % 2 = 0 → a + 128 ≤ 0xC0_0000_0000 →
        (s.eqxMe.disp = none →
          (lrecBad s ctx r = true → ret (cLaunchRecordBad.toNat * 2 ^ 8 + 4))
          ∧ ∀ li u, recordLaunch s ctx r = .ok (li, u) →
            (∀ l, u.launches[li]? = some l → l.ctx = ctx ∧ l.r = r)
            ∧ (dispatchLaunch u li = .noWalker → waits 1)
            ∧ (dispatchLaunch u li = .predWait → ∃ t, exec (.dispatch rd rs1) s = .next t ∧ CoreWrote s t rd 2 ∧ OnlyCore s t)
            ∧ (∀ v, dispatchLaunch u li = .predFailed v → ret 3)
            ∧ (∀ k n v, dispatchLaunch u li = .rejected k n v → ret (n % 2 ^ 32 * 2 ^ 32 + k.toNat * 2 ^ 8 + 4))
            ∧ (∀ y v, dispatchLaunch u li = .pause y v → ∃ t, exec (.dispatch rd rs1) s = .next t
                ∧ t.eqxMe = { s.eqxMe with disp := some li } ∧ t.launches = v.launches)
            ∧ ∀ v, dispatchLaunch u li = .ok v →
                ∃ t, exec (.dispatch rd rs1) s = .next t ∧ CoreWrote s t rd 0 ∧ t.launches = v.launches ∧ t.dies = v.dies)
        ∧ ∀ li l, s.eqxMe.disp = some li → s.launches[li]? = some l → l.ctx = ctx → l.r = r → l.phase = .failed →
            ∃ t, exec (.dispatch rd rs1) s = .next t ∧ t.xreg 0 = 0 ∧ t.eqxMe.disp = none ∧ t.eqxMe.pc = s.eqxMe.pc + 4
              ∧ (rd ≠ 0 → t.xreg rd = BitVec.ofNat 64 (l.cause.toNat * 2 ^ 8 + 4)) ∧ t.launches = s.launches))
  ∧ (∀ (s : State),
      let c := s.eqxMe
      let runs (w : W32) (P : State → Prop) : Prop := ∃ i, rvDecode w = some i ∧ P (execRv 4 w i s)
      let a := (s.xreg 6).toNat
      runs 0x0073_02B3 (fun t => CoreWrote s t 5 (s.xreg 6 + s.xreg 7) ∧ OnlyCore s t)
      ∧ (a % 8 = 0 → a + 8 ≤ 0xC0_0000_0000 →
          runs 0x0003_3283 (fun t => CoreWrote s t 5 (BitVec.ofNat 64 (leNat (s.physRead a 8))) ∧ OnlyCore s t)
          ∧ runs 0x0073_3023 (fun t => t.physRead a 8 = leBytes 8 (s.xreg 7).toNat ∧ SameMemBut s t a 8
              ∧ t.eqxMe = { c with pc := c.pc + 4, instret := c.instret + 1 }))
      ∧ (s.xreg 6 = s.xreg 7 →
          runs 0x0073_0863 fun t => t.eqxMe = { c with pc := (c.pc + 16) &&& ~~~(1 : W64), instret := c.instret + 1 } ∧ OnlyCore s t)
      ∧ runs 0x0000_0073 (fun t => t = s.eqxTrap 11 0)
      ∧ runs 0x3403_12F3 (fun t => CoreWrote { s with cores := s.cores.set s.core { c with mscratch := s.xreg 6 } } t 5 c.mscratch))

/-- R226, R227, R231 to R234: a packet that is not the next of its queue, or whose queue is not free, stays; a misaligned
result address makes the queue ERRORED; a code that R233 does not list ends with EQX_QPACKET_BAD and VALUE 1; a result
word is 8 bytes at its address, the cause in bits 9:0 and VALUE in bits 63:16. R41, R42, R226, R227, R231, R232: a
LAUNCH packet with a misaligned record, a record that cannot be read or a bad record is rejected with the cause in its
result word; with a good record the launch is accepted, its result word says SUCCESS, and the QCB of the queue, in its
slot or in the queue tables, keeps the record's address. -/
def Obligations.QueuePackets : Prop :=
  (∀ (c : Cmd) (code : BitVec 16) (k : Cause) (v : Nat) (lf : Leaf) (f : Fetched) (s : State),
      ((queueFree s c.ctx c.qid = false ∨ nextPacket s c.ctx c.qid = none) →
        exec (.queueCreate c) s = .refused (.notEnabled "QUEUE_CREATE")
        ∧ exec (.launchPacket c.ctx c.qid c.a0 c.rslt) s = .refused (.notEnabled "LAUNCH_PACKET"))
      ∧ (∀ i : Fin 64, packetReady s 2 4 c = some f → c.rslt.toNat % 8 ≠ 0 → slotOf s c.ctx c.qid = some i →
          ∃ t, exec (.memUnmap c) s = .next t ∧ (t.slot i).q = { (s.slot i).q with state := .errored })
      ∧ (packetReady s 2 (packetCode f.data) f.cmd = some f → packetInstr f = none → f.cmd.rslt.toNat % 8 = 0 →
          serveOther s f = endCmd (s.working f f.cmd (packetCode f.data)) f.cmd (packetCode f.data) cEqxQpacketBad 1)
      ∧ endCmd s c code k v = endWork (result s c.ctx c.qid c.rslt k v) c code
      ∧ (c.rslt = 0 → result s c.ctx c.qid c.rslt k v = s)
      ∧ (c.rslt ≠ 0 → translate s .none c.ctx c.rslt.toNat .write .equinox = .ok lf → v < 2 ^ 48 →
          let t := result s c.ctx c.qid c.rslt k v
          t.physRead (lf.pa c.rslt.toNat) 8 = leBytes 8 (k.toNat + v * 2 ^ 16)
            ∧ SameMemBut s t (lf.pa c.rslt.toNat) 8 ∧ t.launches = s.launches ∧ t.sps = s.sps))
  ∧ (∀ (ctx : CtxId) (qid : BitVec 12) (lrec rslt : W64) (b : List Byte) (f : Fetched) (s : State),
      let r := parseLRec b
      let c : Cmd := ⟨ctx, qid, rslt, lrec, 0, 0, 0⟩
      let w := s.working f c 0
      let i : Instr := .launchPacket ctx qid lrec rslt
      packetReady s 1 0 c = some f → rslt.toNat % 8 = 0 →
      (lrec.toNat % 128 ≠ 0 → exec i s = .next (endCmd w c 0 cLaunchRecordBad 0))
      ∧ (lrec.toNat % 128 = 0 →
          (∀ k va, gRead w .none ctx .equinox lrec.toNat 128 = .error (k, va) → repairable w ctx va k = false →
            exec i s = .next (endCmd w c 0 k 0))
          ∧ (gRead w .none ctx .equinox lrec.toNat 128 = .ok b →
            (∀ k, checkLRec w ctx r = some k → exec i s = .next (endCmd w c 0 k 0))
            ∧ (checkLRec w ctx r = none →
                ∃ u l, exec i s = .next (endCmd u c 0 0 0) ∧ u.launches = w.launches ++ [l] ∧ l.r = r
                  ∧ l.ctx = ctx ∧ l.depth = 1 ∧ l.phase = .accepted ∧ l.src = .queue (some qid) ∧ l.gone = false
                  ∧ (u.ctx ctx).progress = w.time
                  ∧ (∀ n, slotOf w ctx qid = some n → u.mem = w.mem ∧ (u.slot n).q = { (w.slot n).q with held := lrec })
                  ∧ (slotOf w ctx qid = none →
                      tableQcb u ctx qid = (tableQcb w ctx qid).map fun q => { q with held := lrec, qseq := q.qseq + 1 })))))

/-- R224, R225, R229, R230, R233, R234: contexts and queues. CTX_CREATE takes the lowest context that does not exist, with a
page table and an RMT block of its own; CTX_DESTROY is refused for a context with live launches (4), from a context that
is not context 0 (2) and for context 0 itself (2, log 21), and waits for its Dealer operations and its ACTIVE slots,
then for a shootdown of the whole G-space; QUEUE_CREATE takes the lowest free number, QUEUE_DESTROY gives it back, for a
queue whose slot is ACTIVE once it is MAPPED. The model's choices: which number is lowest (log 62), the fields of a new
queue (log 71), what CTX_DESTROY ends and when it is refused (log 21). -/
def Obligations.ContextCommands : Prop :=
  ∀ (c : Cmd) (f : Fetched) (s : State),
    let b (code : BitVec 16) : State := s.working f c code
    let gone (w : State) (i : CtxId) : Prop := (w.ctx i).alive = false ∧ ctxEnding w i = false
    let qs (w : State) : List UserQueue := (w.ctx c.ctx).queues
    (∀ (i : CtxId) (u : State), c.a0 = 0 → c.a1.toNat % 0x8000 = 0 → c.a1.toNat < 2 ^ 56 →
        gone (b 1) i → (∀ j, j < i → ¬ gone (b 1) j) → makeCtx (b 1) i (slkDefaults 0) c.a1 = some u →
        Ends (.ctxCreate c) 1 c s f i.val fun t =>
          t = u ∧ (t.ctx i).alive = true ∧ (t.ctx i).kick = c.a1 ∧ (t.ctx i).pending = 0 ∧ (t.ctx i).queues = []
            ∧ (t.ctx i).codes = [] ∧ ∀ j, j ≠ i → t.ctx j = (b 1).ctx j)
    ∧ (c.a1.toNat % 0x8000 ≠ 0 → Fails (.ctxCreate c) 1 c s f cEqxQpacketBad 1)
    ∧ (∀ i : CtxId, c.ctx = 0 → c.a0.toNat = i.val → i ≠ 0 → ((b 2).ctx i).alive = true →
        (ctxBusy (b 2) i = true → Fails (.ctxDestroy c) 2 c s f cEqxQpacketBad 4)
        ∧ (ctxBusy (b 2) i = false → Pends (.ctxDestroy c) 2 c s f (.ctxIdle i) 0 fun t => (t.ctx i).alive = false))
    ∧ (∀ (i : CtxId) (v : Nat), let t := settleOne s ⟨c, 2, .ctxIdle i, v⟩
        t.ctx i = Ctx.init ∧ (∀ j, j ≠ i → t.ctx j = s.ctx j)
          ∧ (∃ fs, t.dev.shoots = s.dev.shoots ++ [⟨s.dev.shootNum + 1, i, 0, 2 ^ 56, allUnits, fs⟩])
          ∧ t.dev.cmds = s.dev.cmds ++ [⟨c, 2, .shootdown (s.dev.shootNum + 1), v⟩])
    ∧ (c.ctx ≠ 0 → Fails (.ctxDestroy c) 2 c s f cEqxQpacketBad 2)
    ∧ (c.ctx = 0 → c.a0 = 0 → ((b 2).ctx 0).alive = true → Fails (.ctxDestroy c) 2 c s f cEqxQpacketBad 2)
    ∧ (∀ n : Nat, n < 4096 → c.a0.toNat % 64 = 0 → c.a0.toNat < 2 ^ 56 → 4 ≤ c.a1.toNat % 32 → c.a1.toNat % 32 ≤ 16 →
        c.a1.toNat / 32 % 8 = 0 → c.a1.toNat < 2 ^ 11 →
        (∀ q ∈ qs (b 5), q.qid.toNat ≠ n) → (∀ m, m < n → ∃ q ∈ qs (b 5), q.qid.toNat = m) →
        Ends (.queueCreate c) 5 c s f n fun t =>
          ∃ u, qs t = qs (b 5) ++ [u] ∧ u.qid.toNat = n ∧ u.a = u.b
            ∧ u.a.ring = c.a0.setWidth 56 ∧ u.a.log2n.toNat = c.a1.toNat % 32 ∧ u.a.prio.toNat = c.a1.toNat / 2 ^ 8
            ∧ u.a.ctx = c.ctx ∧ u.a.head = 0 ∧ u.a.prod = 0)
    ∧ (c.a0.toNat % 64 ≠ 0 → Fails (.queueCreate c) 5 c s f cEqxQpacketBad 1)
    ∧ (∀ n : BitVec 12, c.a0.toNat = n.toNat → (∃ q ∈ qs (b 6), q.qid = n) →
        (slotActive (b 6) c.ctx n = false →
          Ends (.queueDestroy c) 6 c s f 0 fun t => qs t = ((qs (b 6)).filter fun q => q.qid != n)
            ∧ ∀ x ∈ t.dev.fetched, x.ctx ≠ c.ctx ∨ x.qid ≠ n)
        ∧ (slotActive (b 6) c.ctx n = true →
          Pends (.queueDestroy c) 6 c s f (.slotIdle c.ctx n) 0 fun t => t = b 6))
    ∧ ((∀ q ∈ qs (b 6), q.qid.toNat ≠ c.a0.toNat) → Fails (.queueDestroy c) 6 c s f cEqxQpacketBad 1)

/-- R202, R205, R233, R235, R430: MEM_MAP, MEM_UNMAP and RMT_SET change the tables, then wait for the shootdown of what they
changed. The model's choices: the frame that a page gets (log 10), ranges that hold pages (log 63), the ranges that
RMT_SET shoots down (log 64), and that MEM_UNMAP of 0 bytes fails with VALUE 1, which R235 says of MEM_MAP alone (log
124). R201, R202, R203, R235: what lookups find after MEM_MAP and MEM_UNMAP of one page of 4 KiB whose tables are there:
after MEM_MAP the leaf that the arguments name, with the frame that the page got or its remote offset, and for a HOST
page the entry that Equinox keeps (its bits are log 9); after MEM_UNMAP no page. No byte of memory changes but those of
the page's entry. -/
def Obligations.MappingCommands : Prop :=
  (∀ (c : Cmd) (f : Fetched) (s : State),
      let b (code : BitVec 16) : State := s.working f c code
      let va := c.a0.toNat
      let n := c.a1.toNat
      let shot (t u : State) (lo hi : Nat) (fs : List Nat) : Prop :=
        t.dev.shoots = u.dev.shoots ++ [⟨u.dev.shootNum + 1, c.ctx, lo, hi, allUnits, fs⟩] ∧ t.mem = u.mem
      (∀ (u v : State) (fs : List Nat) (lvl run p : Nat), let a2 := c.a2.toNat
          sizeCode (a2 / 2 ^ 12 % 8) = some (lvl, run, p) → a2 < 2 ^ 15 → a2 / 2 ^ 9 % 8 = 0 → a2 % 4 = 0 → a2 / 2 ^ 4 % 4 ≠ 3 →
          (a2 / 4 % 4 = 2 → a2 / 2 ^ 12 % 8 = 1) → arg3Ok a2 c.a3.toNat (n / p) = true →
          n ≠ 0 → va % p = 0 → n % p = 0 → va + n ≤ 2 ^ 56 → inDevArea va n = false →
          unmapRange (b 3) c.ctx va n = some (u, fs) →
          mapPages c.ctx va p (pageEntry a2 c.a3.toNat p) (n / p) u = some v →
          Pends (.memMap c) 3 c s f (.shootdown (v.dev.shootNum + 1)) 0 fun t => shot t v va (va + n) fs)
      ∧ (c.a2.toNat % 4 ≠ 0 → Fails (.memMap c) 3 c s f cEqxQpacketBad 1)
      ∧ ((n = 0 ∨ va % 0x1000 ≠ 0) → n % 0x1000 = 0 → Fails (.memUnmap c) 4 c s f cEqxQpacketBad 1)
      ∧ (∀ (u : State) (fs : List Nat), n ≠ 0 → va % 0x1000 = 0 → n % 0x1000 = 0 → va + n ≤ 2 ^ 56 →
          inDevArea va n = false → unmapRange (b 4) c.ctx va n = some (u, fs) →
          Pends (.memUnmap c) 4 c s f (.shootdown (u.dev.shootNum + 1)) 0 fun t => shot t u va (va + n) fs)
      ∧ (c.a0.toNat < 4096 → c.a1.toNat / 2 ^ 12 % 2 ^ 20 = 0 → c.a2.toNat < 2 ^ 56 →
          let e := ((b 0x12).ctx c.ctx).rmtbase.toNat / 2 ^ 16 % 2 ^ 40 * 2 ^ 16 + 16 * c.a0.toNat
          Pends (.rmtSet c) 0x12 c s f (.shootdown ((b 0x12).dev.shootNum + 1)) 0 fun t =>
            t.physRead e 16 = leBytes 8 c.a1.toNat ++ leBytes 8 c.a2.toNat ∧ SameMemBut (b 0x12) t e 16
              ∧ t.dev.shoots = (b 0x12).dev.shoots ++ [⟨(b 0x12).dev.shootNum + 1, c.ctx, 0, 2 ^ 56, allUnits, []⟩])
      ∧ ((4096 ≤ c.a0.toNat ∨ c.a1.toNat / 2 ^ 12 % 2 ^ 20 ≠ 0 ∨ 2 ^ 56 ≤ c.a2.toNat) →
          Fails (.rmtSet c) 0x12 c s f cEqxQpacketBad 1))
  ∧ (∀ (c : Cmd) (f : Fetched) (t1 t2 t3 x fr : Nat) (s : State),
      let b (code : BitVec 16) : State := s.working f c code
      let va := c.a0.toNat
      let a2 := c.a2.toNat
      let a3 := c.a3.toNat
      let root (w : State) : Nat := (w.ctx c.ctx).ptbase.toNat / 2 ^ 14 % 2 ^ 32 * 2 ^ 14
      let leaf : Nat := t3 + 8 * tableIdx va 3
      let here (w t : State) (e : Nat) : Prop := SameMemBut w t leaf 8 ∧ t.sps = w.sps
        ∧ ∃ lf, walk t c.ctx x = .ok lf ∧ lf.pte = e ∧ lf.base = va ∧ lf.psize = 0x1000
      va % 0x1000 = 0 → va + 0x1000 ≤ 0x00FF_FF00_0000_0000 → va ≤ x → x < va + 0x1000 → c.a1 = 0x1000 →
      (TablePath (b 3).mem (root (b 3)) va t1 t2 t3 → memNat (b 3).mem leaf 8 = 0 → a2 < 2 ^ 9 → a2 % 4 = 0 →
        a2 / 2 ^ 4 % 4 ≠ 3 → arg3Ok a2 a3 1 = true →
        let pends (P : State → Prop) : Prop :=
          Pends (.memMap c) 3 c s f (.shootdown ((b 3).dev.shootNum + 1)) 0 fun t => P t ∧ ∃ fs, t.dev.shoots =
            (b 3).dev.shoots ++ [⟨(b 3).dev.shootNum + 1, c.ctx, va, va + 0x1000, allUnits, fs⟩]
        (a2 / 4 % 4 = 0 → fr < 2 ^ 46 → fr % 0x1000 = 0 →
            findFrame (b 3) (if a2 / 2 ^ 6 % 2 = 1 then some (Fin.ofNat 4 (a3 % 4)) else none) 0x1000 = some fr →
            pends fun t => here (b 3) t (3 + a2 + fr) ∧ t.dev.frames = (fr, 0x1000) :: (b 3).dev.frames)
        ∧ (a2 / 4 % 4 = 1 → pends fun t => here (b 3) t (3 + a2 + a3 * 2 ^ 12))
        ∧ (a2 / 4 % 4 = 3 → pends fun t => SameMemBut (b 3) t leaf 8 ∧ walk t c.ctx x = .error cPageNotPresent
            ∧ hostEntry t c.ctx x = some (leaf, 2 + a2 + a3 % 4 * 2 ^ 46, 0x1000)))
      ∧ (TablePath (b 4).mem (root (b 4)) va t1 t2 t3 →
          let e := memNat (b 4).mem leaf 8
          e % 4 = 3 → leafSize 3 e = some 0x1000 →
          Pends (.memUnmap c) 4 c s f (.shootdown ((b 4).dev.shootNum + 1)) 0 fun t =>
            walk t c.ctx x = .error cPageNotPresent ∧ SameMemBut (b 4) t leaf 8 ∧ t.sps = (b 4).sps
              ∧ t.dev.shoots = (b 4).dev.shoots ++ [⟨(b 4).dev.shootNum + 1, c.ctx, va, va + 0x1000, allUnits, frameOf e⟩]))

/-- R167, R173, R233, R237, R240 to R242, R429: code objects, regions and queue pairs. ZCO_LOAD adds an object under a new
handle and ends after the shootdown of what it maps; ZCO_UNLOAD of an object that a live launch names is refused with 4
and else ends after a shootdown; REGION_REGISTER, of memory or of the SRFs of a gang, returns index · 4096 + generation;
REGION_REVOKE counts the generation up modulo 4,096 and takes a key of generation 4,095 out of use; QP_CREATE takes the
lowest free number. The model's choices: the order of load checks (log 20), lowest numbers (log 62), index and
generation of a new key (log 72), the port numbers and what is malformed (log 112), ARG0 of QP_CREATE kept as the peer
itself (log 126). -/
def Obligations.ObjectCommands : Prop :=
  ∀ (c : Cmd) (f : Fetched) (s : State),
    let b (code : BitVec 16) : State := s.working f c code
    (∀ (d : List Byte) (v : Nat) (w : CmdWait) (u : State), gRead (b 7) .none c.ctx .equinox c.a0.toNat c.a1.toNat = .ok d →
        loadObject ((b 7).chipEqx c.ctx c.a0.toNat c.a1.toNat) c.ctx d = .later w v u → w = .shootdown u.dev.shootNum
          ∧ Pends (.zcoLoad c) 7 c s f w v fun t => t = u ∧ ∃ o, (t.ctx c.ctx).codes = ((b 7).ctx c.ctx).codes ++ [o]
            ∧ o.handle = ((b 7).ctx c.ctx).nextHandle ∧ (v < 2 ^ 40 → v = o.handle.toNat))
    ∧ (∀ (d : List Byte) (k : Cause), gRead (b 7) .none c.ctx .equinox c.a0.toNat c.a1.toNat = .ok d →
        loadObject ((b 7).chipEqx c.ctx c.a0.toNat c.a1.toNat) c.ctx d = .fail k 0 → Fails (.zcoLoad c) 7 c s f k 0)
    ∧ (codeOf (b 8) c.ctx c.a0 = none → Fails (.zcoUnload c) 8 c s f cEqxQpacketBad 1)
    ∧ (∀ o, codeOf (b 8) c.ctx c.a0 = some o →
        ((∃ l ∈ s.launches, l.gone = false ∧ l.ctx = c.ctx ∧ l.r.code = c.a0) →
          Fails (.zcoUnload c) 8 c s f cEqxQpacketBad 4)
        ∧ ((∀ l ∈ s.launches, l.gone = false → l.ctx = c.ctx → l.r.code ≠ c.a0) →
            Pends (.zcoUnload c) 8 c s f (.shootdown ((b 8).dev.shootNum + 1)) 0 fun t =>
              (t.ctx c.ctx).codes = ((b 8).ctx c.ctx).codes.filter fun y => y.handle != c.a0))
    ∧ (∀ i : Nat, c.a2.toNat < 32 → c.a2.toNat % 2 = 0 → freeRegion (b 9) = some i →
        let g := ((assoc? (b 9).dev.regions i).map Region.gen).getD 1
        let srf := c.a2.getLsbD 1
        (srf = false → c.a0.toNat < 2 ^ 56 ∧ c.a1.toNat < 2 ^ 56 ∧ c.a0.toNat + c.a1.toNat ≤ 2 ^ 56
          ∧ inDevArea c.a0.toNat c.a1.toNat = false) →
        (srf = true → c.a0.toNat < 2 ^ 23 ∧ c.a1.toNat ≤ 2 ^ 23) →
        Ends (.regionRegister c) 9 c s f (i * 4096 + g.toNat) fun t =>
          ∃ r, assoc? t.dev.regions i = some r ∧ r.valid = true ∧ r.freed = false ∧ r.srf = srf ∧ r.gen = g
            ∧ r.ctx = c.ctx ∧ r.base = c.a0.setWidth 56 ∧ r.lenb = c.a1.setWidth 56
            ∧ r.rd = c.a2.getLsbD 2 ∧ r.wr = c.a2.getLsbD 3 ∧ r.atom = c.a2.getLsbD 4
            ∧ (srf = true → r.glaunch = c.a3.extractLsb' 0 32 ∧ r.gtask = c.a3.extractLsb' 32 32)
            ∧ ∀ j, j ≠ i → assoc? t.dev.regions j = assoc? (b 9).dev.regions j)
    ∧ (∀ r, c.a0.toNat < 2 ^ 32 → 4096 ≤ c.a0.toNat → assoc? (b 10).dev.regions (c.a0.toNat / 4096) = some r →
        r.valid = true → r.freed = false → r.gen = c.a0.setWidth 12 → r.ctx = c.ctx →
        Pends (.regionRevoke c) 10 c s f (.revoke (c.a0.setWidth 32)) 0 fun t =>
          assoc? t.dev.regions (c.a0.toNat / 4096)
            = some { r with gen := r.gen + 1, valid := decide (r.gen ≠ 4095), freed := decide (r.gen ≠ 4095) })
    ∧ (c.a0.toNat < 2 ^ 32 → assoc? (b 10).dev.regions (c.a0.toNat / 4096) = none →
        Fails (.regionRevoke c) 10 c s f cEqxQpacketBad 1)
    ∧ (∀ n : Nat, c.a1.toNat < 7 → c.a2.toNat < 2 ^ 56 →
        n < 16384 → (∀ m, m < n → (qpOf (b 11) (BitVec.ofNat 14 m)).isSome = true) →
        qpOf (b 11) (BitVec.ofNat 14 n) = none → n ≤ (b 11).dev.qps.length →
        Ends (.qpCreate c) 11 c s f n fun t => qpOf t (BitVec.ofNat 14 n) = some ⟨c.ctx, c.a0, c.a1, c.a2, 0⟩)
    ∧ ((7 ≤ c.a1.toNat ∨ 2 ^ 56 ≤ c.a2.toNat) → Fails (.qpCreate c) 11 c s f cEqxQpacketBad 1)

/-- R52, R210, R218, R233, R234, R248: STATE_READ copies at most ARG3 bytes of an object. PREEMPT and MIGRATE ask every gang
of a context to leave, take its launches out of the pools and its tasks out of the ready queues, and end when it has
left; MIGRATE stops a gang at once that is in no NO_ROLLBACK region. JOB_STOP ends a live launch and every launch that
depends on it: FAILED with JOB_STOPPED, no gang live, no walker, pool entry or ready task left. The model's choices:
layouts and the cut at ARG3 (log 22), what MIGRATE leaves to the other device (log 66). R2, R60, R71, R172, R219, R233,
R236: CTX_SETREG and DEV_SETREG write registers: a field of CTXWD, and a register that counts time, stores 0 as 1.
MEMSPLIT is written to the boot configuration, for the next boot. The reserved bits of a value have no effect in
CTX_SETREG and are refused in DEV_SETREG, as a MEMSPLIT above 64 is. R13, R60, R71, R110, R172, R252: the registers that
only Equinox cores write: 0 is stored as 1, PWRLIM as the nearer bound of 64 and 3,136, and MEMSPLIT takes LOCAL up to
64 until LOCK is set. With no firmware slot accepted no core writes them (R252). The model's choice: LOCK in a write
whose LOCAL is out of range (log 79). -/
def Obligations.ControlCommands : Prop :=
  (∀ (c : Cmd) (f : Fetched) (s : State),
      let b (code : BitVec 16) : State := s.working f c code
      let n := c.a0.toNat
      let v := c.a2.toNat
      let queued (w t : State) (i : CtxId) : Prop :=
        (∀ (d : DieId) (k : Nat), k ∈ (t.die d).pool ↔ k ∈ (w.die d).pool ∧ launchOf w i k = false)
        ∧ (∀ (d : DieId) (x : ReadyTask), x ∈ (t.die d).ready ↔ x ∈ (w.die d).ready ∧ launchOf w i x.launch = false)
        ∧ ∀ (d : DieId) (k : Nat), k ∈ (w.die d).pool → launchOf w i k = true → (d, k) ∈ (t.ctx i).savedPool
      (∀ (d : List Byte) (u : State), readObject (b 12) c.ctx false n c.a1 = .ok d →
          gWrite (b 12) .none c.ctx .equinox v (d.take c.a3.toNat) = .ok u →
          Ends (.stateRead c) 12 c s f (min c.a3.toNat d.length) fun t => t.mem = u.mem ∧ t.sps = u.sps)
      ∧ (∀ k, readObject (b 12) c.ctx false n c.a1 = .error k → Fails (.stateRead c) 12 c s f cEqxQpacketBad k)
      ∧ (∀ i : CtxId, n = i.val → (c.ctx = 0 ∨ i = c.ctx) → ((b 13).ctx i).alive = true → ((b 13).ctx i).preempt = none →
          Pends (.preempt c) 13 c s f (.preempt i) 0 fun t =>
            (t.ctx i).preempt = some ⟨(b 13).time, false⟩ ∧ queued (b 13) t i)
      ∧ (c.ctx ≠ 0 → n ≠ c.ctx.val → Fails (.preempt c) 13 c s f cEqxQpacketBad 2
          ∧ Fails (.migrate c) 16 c s f cEqxQpacketBad 2)
      ∧ (∀ i : CtxId, n = i.val → (c.ctx = 0 ∨ i = c.ctx) → ((b 16).ctx i).alive = true → c.a1.toNat ≤ 2047 →
          ((b 16).ctx i).preempt = none →
          Pends (.migrate c) 16 c s f (.preempt i) 0 fun t => (t.ctx i).preempt.isSome = true ∧ queued (b 16) t i
            ∧ ∀ gi g, residentGangs (b 16) i = [gi] → s.gangs[gi]? = some g → gangNoRb (b 16) g = false →
                ∃ x, t.gangs[gi]? = some x ∧ x.live = g.live ∧ x.saveAt.isSome = true
                  ∧ ∀ q ∈ g.seats, ∀ sp, q.sp = some sp → (t.sp sp).run = .parked ∨ (t.sp sp).run = .stopped .forced)
      ∧ (∀ li, n < 2 ^ 32 → liveLaunch (b 14) c.ctx (c.a0.setWidth 32) = some li →
          Ends (.jobStop c) 14 c s f 0 fun t => ∀ k l, k ∈ jobOf (b 14) [li] → s.launches[k]? = some l → l.phase ≠ .done →
            l.phase ≠ .failed → LaunchHalted t k cJobStopped)
      ∧ (∀ li, liveLaunch (b 14) c.ctx (c.a0.setWidth 32) = some li → li ∈ jobOf (b 14) [li])
      ∧ ((n < 2 ^ 32 → liveLaunch (b 14) c.ctx (c.a0.setWidth 32) = none) → Fails (.jobStop c) 14 c s f cEqxQpacketBad 1))
  ∧ (∀ (c : Cmd) (f : Fetched) (s : State),
      let n := c.a0.toNat
      let v := c.a2.toNat
      (n = 1 → Ends (.ctxSetreg c) 15 c s f 0 fun t =>
          (t.ctx c.ctx).ctxwd.toNat < 2 ^ 48
          ∧ ∀ k : Nat, k < 3 → (t.ctx c.ctx).ctxwd.toNat / 2 ^ (16 * k) % 2 ^ 16 = max 1 (c.a1.toNat / 2 ^ (16 * k) % 2 ^ 16))
      ∧ (n = 2 → Ends (.ctxSetreg c) 15 c s f 0 fun t => (t.ctx c.ctx).slkctl.toNat = c.a1.toNat % 2)
      ∧ (n = 0 ∨ 2 < n → Fails (.ctxSetreg c) 15 c s f cEqxQpacketBad 1)
      ∧ (c.ctx ≠ 0 → Fails (.devSetreg c) 17 c s f cEqxQpacketBad 2)
      ∧ (c.ctx = 0 → (n = 0 ∨ 5 < n) → Fails (.devSetreg c) 17 c s f cEqxQpacketBad 1)
      ∧ (c.ctx = 0 → n = 1 → c.a1 = 0 →
          (v ≤ 64 → Ends (.devSetreg c) 17 c s f 0 fun t =>
            t.dev.boot.bootK.toNat = v ∧ t.dev.memsplit = (s.working f c 17).dev.memsplit)
          ∧ (64 < v → Fails (.devSetreg c) 17 c s f cEqxQpacketBad 1))
      ∧ (c.ctx = 0 → n = 4 → c.a1 = 0 →
          (v < 2 ^ 24 → Ends (.devSetreg c) 17 c s f 0 fun t => t.dev.fabtime.toNat = max 1 v)
          ∧ (2 ^ 24 ≤ v → Fails (.devSetreg c) 17 c s f cEqxQpacketBad 1))
      ∧ (∀ d : DieId, c.ctx = 0 → c.a1.toNat = d.val →
          (n = 2 ∧ 2 ^ 20 ≤ v ∨ n = 3 ∧ 2 ^ 24 ≤ v ∨ n = 5 ∧ 2 ^ 12 ≤ v → Fails (.devSetreg c) 17 c s f cEqxQpacketBad 1)
          ∧ (n = 2 → v < 2 ^ 20 → Ends (.devSetreg c) 17 c s f 0 fun t => (t.die d).dispage.toNat = max 1 v)
          ∧ (n = 3 → v < 2 ^ 24 → Ends (.devSetreg c) 17 c s f 0 fun t => (t.die d).fetime.toNat = max 1 v)
          ∧ (n = 5 → v < 2 ^ 12 → Ends (.devSetreg c) 17 c s f 0 fun t =>
              ∀ p : SpId, dieOf p = d → (t.sp p).pwrlim.toNat = max 64 (min 3136 v))))
  ∧ (∀ (d : DieId) (p : SpId) (v : W32) (s : State),
      (s.dev.boot.status = 2 → exec (.memsplitWrite v) s = .refused (.notEnabled "MEMSPLIT_WRITE")
          ∧ ∀ x, exec (.deviceRegisterWrite x v) s = .refused (.notEnabled "DEVICE_REGISTER_WRITE"))
      ∧ (s.dev.boot.status ≠ 2 →
        ((s.dev.memsplit.getLsbD 7 = true → exec (.memsplitWrite v) s = .next s)
        ∧ (s.dev.memsplit.getLsbD 7 = false →
            ∃ t, exec (.memsplitWrite v) s = .next t ∧ SameMem s t ∧ t.dev.memsplit.getLsbD 7 = v.getLsbD 7
              ∧ t.dev.memsplit.toNat % 128 = (if v.toNat % 128 ≤ 64 then v.toNat % 128 else s.dev.memsplit.toNat % 128))
        ∧ (∃ t, exec (.deviceRegisterWrite (.dispage d) v) s = .next t ∧ SameMem s t
            ∧ (t.die d).dispage.toNat = max 1 (v.toNat % 2 ^ 20) ∧ ∀ x, x ≠ d → t.die x = s.die x)
        ∧ (∃ t, exec (.deviceRegisterWrite (.fetime d) v) s = .next t ∧ SameMem s t
            ∧ (t.die d).fetime.toNat = max 1 (v.toNat % 2 ^ 24) ∧ ∀ x, x ≠ d → t.die x = s.die x)
        ∧ (∃ t, exec (.deviceRegisterWrite .fabtime v) s = .next t ∧ SameMem s t
            ∧ t.dev.fabtime.toNat = max 1 (v.toNat % 2 ^ 24))
        ∧ (∃ t, exec (.deviceRegisterWrite (.pwrlim p) v) s = .next t ∧ SameMem s t
            ∧ (t.sp p).pwrlim.toNat = max 64 (min 3136 (v.toNat % 2 ^ 12)) ∧ ∀ x, x ≠ p → t.sp x = s.sp x))))

/-! ## RoCEv2 and Sahat -/

/-- R137, R152, R169, R228, R237, R254: a request whose key opens the bytes is performed through the translation of the
region's context and answered; one whose key does not is answered with a remote access error and has no effect. The
model's choice: a request with an error has no effect at all (log 23). R237, R254: a connection that offers a path MTU
below 4,096 is refused; a peer that a queue pair names is accepted, and an unknown one gets a new queue pair (of context
0 at the host-attach port of die 0, log 23, log 112); a request of any other opcode is answered with a NAK. -/
def Obligations.RdmaRequests : Prop :=
  (∀ (q : RdmaReq) (p : Qp) (r : Region) (data : List Byte) (len : Nat) (cmp new : W64) (lf : Leaf) (s : State),
      let va := q.va.toNat
      let replied (t : State) (o : EthOut) : Prop := ∃ l, t.dev.ethOut = l ++ [o]
      let refuses (i : Instr) : Prop :=
        exec i s = .next (s.modDev fun d => { d with ethOut := d.ethOut ++ [.remoteAccessError q.qp] })
      let old := leNat (s.physRead (lf.pa va) 8)
      let atomic (i : Instr) (x : Nat) : Prop :=
        ∃ t, exec i s = .next t ∧ leNat (t.physRead (lf.pa va) 8) = x ∧ SameMemBut s t (lf.pa va) 8
          ∧ replied t (.atomicOld q.qp (BitVec.ofNat 64 old))
      qpOf s q.qp = some p →
      (rkeyRegion s p q.key va data.length Region.wr = none → refuses (.rdmaWrite q data))
      ∧ (∀ u (n : BitVec 12), rkeyRegion s p q.key va data.length Region.wr = some r → data.length = 8 →
          gWrite s .none r.ctx .outside va data = .ok u → va = (s.ctx r.ctx).kick.toNat + 8 * n.toNat →
          let x := s.ctx r.ctx
          let prod : W32 := BitVec.ofNat 32 (leNat (data.take 4))
          ∃ t, exec (.rdmaWrite q data) s = .next t ∧ replied t (.ack q.qp)
            ∧ (x.tabA.bad = x.tabB.bad → (∀ y ∈ x.queues, y.aBad = y.bBad) → t.mem = u.mem)
            ∧ (∀ i, slotOf s r.ctx n = some i → t.slotSum.getLsbD i.val = true
                ∧ (t.slot i).q = { (s.slot i).q with prod := prod })
            ∧ (slotOf s r.ctx n = none → t.ctxSum.getLsbD r.ctx.val = true
                ∧ (t.ctx r.ctx).pending.getLsbD n.toNat = true ∧ t.slots = s.slots
                ∧ (tableQcb t r.ctx n).map Qcb.prod = (tableQcb s r.ctx n).map fun _ => prod))
      ∧ (∀ u, rkeyRegion s p q.key va data.length Region.wr = some r → gWrite s .none r.ctx .outside va data = .ok u →
          (va + data.length ≤ (s.ctx r.ctx).kick.toNat ∨ (s.ctx r.ctx).kick.toNat + 0x8000 ≤ va) →
          ∃ t, exec (.rdmaWrite q data) s = .next t ∧ t.sps = s.sps ∧ replied t (.ack q.qp)
            ∧ ((s.ctx r.ctx).tabA.bad = (s.ctx r.ctx).tabB.bad → t.mem = u.mem))
      ∧ (¬ (q.key = 1 ∧ p.ctx = 0) → rkeyRegion s p q.key va len Region.rd = none → refuses (.rdmaRead q len))
      ∧ (∀ b, ¬ (q.key = 1 ∧ p.ctx = 0) → rkeyRegion s p q.key va len Region.rd = some r →
          gRead s .none r.ctx .outside va len = .ok b →
          ∃ t, exec (.rdmaRead q len) s = .next t ∧ t.mem = s.mem ∧ replied t (.readData q.qp b))
      ∧ (q.key = 1 → p.ctx = 0 → va + len ≤ 64 →
          ∃ t, exec (.rdmaRead q len) s = .next t ∧ t.mem = s.mem
            ∧ replied t (.readData q.qp (((bootReport s).drop va).take len)))
      ∧ (va % 8 ≠ 0 → refuses (.cas q cmp new) ∧ refuses (.fetchAdd q new))
      ∧ (va % 8 = 0 → rkeyRegion s p q.key va 8 Region.atom = some r →
          translate s .none r.ctx va .amo .outside = .ok lf → poisoned s.dev.poison (lf.pa va) 8 = false →
          atomic (.cas q cmp new) (if old = cmp.toNat then new.toNat else old)
          ∧ atomic (.fetchAdd q new) ((old + new.toNat) % 2 ^ 64))
      ∧ (∀ u, gWrite s .none p.ctx .outside (p.ring.toNat + p.got) data = .ok u →
          ∃ t, exec (.send q.qp data) s = .next t ∧ t.mem = u.mem ∧ replied t (.ack q.qp)
            ∧ qpOf t q.qp = some { p with got := p.got + data.length }))
  ∧ (∀ (peer : W64) (mtu : Nat) (s : State),
      let replies (b : Bool) (t : State) : Prop := t.dev.ethOut = s.dev.ethOut ++ [.connectReply b] ∧ t.mem = s.mem
      (mtu < 4096 → ∃ t, exec (.connectionManagementMad peer mtu) s = .next t ∧ replies false t ∧ t.dev.qps = s.dev.qps)
      ∧ (4096 ≤ mtu → (∃ x ∈ s.dev.qps, x.2.peer = peer) →
          ∃ t, exec (.connectionManagementMad peer mtu) s = .next t ∧ replies true t ∧ t.dev.qps = s.dev.qps)
      ∧ (∀ n, 4096 ≤ mtu → (∀ x ∈ s.dev.qps, x.2.peer ≠ peer) → freeQp s = some n →
          ∃ t, exec (.connectionManagementMad peer mtu) s = .next t ∧ replies true t
            ∧ qpOf t (BitVec.ofNat 14 n) = some ⟨0, peer, 3, 0, 0⟩)
      ∧ (∀ qp p, qpOf s qp = some p → rdmaOther s qp = s.modDev fun d => { d with ethOut := d.ethOut ++ [.invalidRequest qp] }))

/-- R161, R162, R168 to R170: a request from another accelerator that passes the key checks is performed on memory or on the
SRF of the seat it names, and answered with RDATA, ADATA or ACK; one that fails a check is answered with a NAK and has
no effect. The model's readings: an ORD request behind a held one has its key checked on arrival (log 91), and what
makes a header malformed beyond R162's fields (log 101). R70, R164, R169: a READ of an empty line of an SRF is held,
bounded by the FETIME of the line's die; once the line is full, the held request is answered and held no more. A request
with ORD = 1 behind a held one of its stream waits too. R162, R167 to R169: the checks of a key in their order. -/
def Obligations.SahatRequests : Prop :=
  (∀ (h : SahatHdr) (d : List Byte) (r : Region) (lf : Leaf) (g : Gang) (gi : Nat) (sp : SpId) (k : Cause) (s : State),
      let va := h.addr.toNat % 2 ^ 56
      let off := h.addr.toNat % 2 ^ 23
      let n := h.len.toNat + 1
      let pa := lf.pa va
      let answers (t : State) (typ : BitVec 6) (c : Cause) (b : List Byte) : Prop :=
        let st : StId := Fin.ofNat 16 h.stn.toNat
        ∃ p, (t.dev.arb[st]).wait = (s.dev.arb[st]).wait ++ [p] ∧ p.h.typ = typ ∧ p.h.cause = c ∧ p.data = b
          ∧ p.h.tag = h.tag ∧ p.h.ssid = h.ssid ∧ p.h.seq = h.seq ∧ p.h.dst = h.src ∧ p.h.src = h.dst ∧ p.h.stn = h.stn
      arrives s h = true →
      (keyCheck s h d = .error k →
        (h.typ = 3 → ∃ t, exec (.pwr h d) s = .next t ∧ answers t 9 k [] ∧ t.mem = s.mem ∧ t.sps = s.sps)
        ∧ (h.typ = 1 → d = [] → ∃ t, exec (.read h) s = .next t ∧ answers t 9 k [] ∧ t.mem = s.mem ∧ t.sps = s.sps))
      ∧ (keyCheck s h d = .ok r → ordBlocked s h = false →
        (r.srf = false → poisoned s.dev.poison pa n = false →
          (h.typ = 1 → d = [] → translate s .none r.ctx va .read .outside = .ok lf →
            ∃ t, exec (.read h) s = .next t ∧ answers t 2 0 (s.physRead pa n) ∧ t.mem = s.mem)
          ∧ (translate s .none r.ctx va .write .outside = .ok lf →
              (h.typ = 3 → ∃ t, exec (.pwr h d) s = .next t ∧ answers t 8 0 [] ∧ t.physRead pa n = d ∧ SameMemBut s t pa n)
              ∧ (h.typ = 4 → ∃ t, exec (.npwr h d) s = .next t ∧ answers t 8 0 [] ∧ t.physRead pa n = d
                  ∧ SameMemBut s t pa n))
          ∧ (h.typ = 6 → translate s .none r.ctx va .amo .outside = .ok lf →
              ∃ t, exec (.atom h d) s = .next t ∧ answers t 7 0 (s.physRead pa n) ∧ SameMemBut s t pa n
                ∧ leNat (t.physRead pa n)
                    = amoNew h.aop (8 * n) (leNat (s.physRead pa n)) (leNat (d.take n)) (leNat (d.drop n)) % 256 ^ n))
        ∧ (r.srf = true → regionGang s r = some (gi, g) →
            (g.seats[h.addr.toNat / 2 ^ 23 % 64]?).bind Seat.sp = some sp → h.typ = 5 →
            ∃ t, exec (.fewr h d) s = .next t ∧ answers t 8 0 [] ∧ t.mem = s.mem
              ∧ (t.sp sp).fBytes off n = d ∧ (∀ x, (x < off ∨ off + n ≤ x) → (t.sp sp).fByte x = (s.sp sp).fByte x)
              ∧ (∀ x, off ≤ x → x < off + n → (t.sp sp).full x = true) ∧ ∀ i, i ≠ sp → t.sp i = s.sp i)))
  ∧ (∀ (h : SahatHdr) (r : Region) (g : Gang) (gi k : Nat) (sp : SpId) (x : Held) (d : List Byte) (s : State),
      let seat (a : SahatHdr) : Option SpId := (g.seats[a.addr.toNat / 2 ^ 23 % 64]?).bind Seat.sp
      let off (a : SahatHdr) : Nat := a.addr.toNat % 2 ^ 23
      let n (a : SahatHdr) : Nat := a.len.toNat + 1
      let st : StId := Fin.ofNat 16 x.h.stn.toNat
      (arrives s h = true → keyCheck s h [] = .ok r → ordBlocked s h = false → r.srf = true →
        regionGang s r = some (gi, g) → seat h = some sp → h.typ = 1 → (s.sp sp).full (off h) = false →
        ∃ t, exec (.read h) s = .next t ∧ t.dev.held = s.dev.held ++ [⟨h, [], s.time, feLimit s (dieOf sp), true, true⟩]
          ∧ t.mem = s.mem ∧ t.sps = s.sps ∧ t.dev.arb = s.dev.arb)
      ∧ (arrives s h = true → keyCheck s h d = .ok r → ordBlocked s h = true → h.typ = 3 →
        ∃ t, exec (.pwr h d) s = .next t ∧ t.dev.held = s.dev.held ++ [⟨h, d, s.time, 0, false, true⟩]
          ∧ t.mem = s.mem ∧ t.sps = s.sps ∧ t.dev.arb = s.dev.arb)
      ∧ (s.dev.held[k]? = some x → x.accepted = true → regionOf s x.h.key = some r → r.srf = true →
        regionGang s r = some (gi, g) → seat x.h = some sp → x.h.typ = 1 → x.h.ord = false → x.h.src ≠ s.dev.accId →
        s.dev.lanes[st] ≠ 0 → (s.sp sp).full (off x.h) = true → (s.sp sp).full (off x.h + n x.h - 1) = true →
        let t := retryHeld s k
        t.dev.held = s.dev.held.eraseIdx k ∧ t.mem = s.mem ∧ t.sps = s.sps
          ∧ ∃ p, (t.dev.arb[st]).wait = (s.dev.arb[st]).wait ++ [p] ∧ p.h.typ = 2 ∧ p.h.tag = x.h.tag ∧ p.h.ssid = x.h.ssid
            ∧ p.h.seq = x.h.seq ∧ p.data = (s.sp sp).fBytes (off x.h) (n x.h)))
  ∧ (∀ (h : SahatHdr) (d : List Byte) (r : Region) (s : State),
      let a := h.addr.toNat
      let n := h.len.toNat + 1
      let lo := if r.srf then a % 2 ^ 23 else a % 2 ^ 56
      (reqOk h d = false → keyCheck s h d = .error cSahatMalformed)
      ∧ (reqOk h d = true →
        (regionOf s h.key = none → keyCheck s h d = .error cKeyInvalid)
        ∧ (regionOf s h.key = some r →
          (r.valid = false → keyCheck s h d = .error cKeyInvalid)
          ∧ (r.valid = true → h.key.toNat % 4096 ≠ r.gen.toNat → keyCheck s h d = .error cKeyStale)
          ∧ (r.valid = true → h.key.toNat % 4096 = r.gen.toNat → (lo < r.base.toNat ∨ r.base.toNat + r.lenb.toNat < lo + n) →
              keyCheck s h d = .error cKeyRange)
          ∧ (r.srf = false → r.valid = true → h.key.toNat % 4096 = r.gen.toNat → a < 2 ^ 56 → r.base.toNat ≤ lo →
              lo + n ≤ r.base.toNat + r.lenb.toNat →
              ((h.typ = 1 → r.rd = false → keyCheck s h d = .error cKeyPerm)
              ∧ (h.typ = 1 → r.rd = true → keyCheck s h d = .ok r)
              ∧ ((h.typ = 3 ∨ h.typ = 4) → r.wr = false → keyCheck s h d = .error cKeyPerm)
              ∧ ((h.typ = 3 ∨ h.typ = 4) → r.wr = true → keyCheck s h d = .ok r)
              ∧ (h.typ = 5 → keyCheck s h d = .error cKeyPerm)
              ∧ (h.typ = 6 → r.atom = false → keyCheck s h d = .error cKeyPerm)
              ∧ (h.typ = 6 → r.atom = true → keyCheck s h d = .ok r))))))

/-- R76, R77, R162, R170, R171, R181: a well-formed reply closes the transaction of its tag: data and old values go to the
strand that waits for them, a NAK of a plain store becomes its store-fault record, an ACK frees a unit of its window,
and a NAK leaves the window's sticky error with the first cause. A reply of no open transaction, one that comes late for
a tag used again among them, and a malformed one change nothing else. That SEQ tells them apart is the model's reading
(log 121). An acknowledgement that is overdue when it arrives adds 1 to SLKCNT of the issuing context; how long it waits
inside the device is free (log 115). -/
def Obligations.SahatReplies : Prop :=
  ∀ (h : SahatHdr) (d : List Byte) (x : Txn) (sp : SpId) (k : Fin 16) (s : State),
    let open_ := s.dev.txns.find? fun t => t.h.ssid = h.ssid && t.h.tag = h.tag && t.h.seq = h.seq
    let closed (t : State) : Prop :=
      t.dev.txns = (s.dev.txns.filter fun y => !(y.h.ssid = h.ssid && y.h.tag = h.tag)) ∧ t.mem = s.mem
    arrives s h = true →
    (replyBad s h h.typ d = true → h.typ = 2 →
        ∃ t, exec (.rdata h d) s = .next t ∧ t.dev.malformed = s.dev.malformed + 1 ∧ t.dev.txns = s.dev.txns
          ∧ t.sps = s.sps ∧ t.mem = s.mem)
    ∧ (replyBad s h h.typ d = false → open_ = none →
        (h.typ = 2 → exec (.rdata h d) s = .next s) ∧ (h.typ = 7 → exec (.adata h d) s = .next s)
        ∧ (h.typ = 8 → d = [] → exec (.ack h) s = .next s) ∧ (h.typ = 9 → d = [] → exec (.nak h) s = .next s))
    ∧ (replyBad s h h.typ d = false → open_ = some x → h.typ = 8 → d = [] → (∃ rec, x.who = .weak sp rec) →
        ∃ t, exec (.ack h) s = .next t ∧ t.sps = s.sps ∧ (∀ i, i ≠ x.ctx → (t.ctx i).slkcnt = (s.ctx i).slkcnt)
          ∧ (t.ctx x.ctx).slkcnt = (s.ctx x.ctx).slkcnt + (if (dieWait s.tick h).ovd then 1 else 0)
          ∧ (h.ovd = true ∨ h.slack = 0 → (t.ctx x.ctx).slkcnt = (s.ctx x.ctx).slkcnt + 1))
    ∧ (replyBad s h h.typ d = false → open_ = some x → ((s.ctx x.ctx).slkctl.getLsbD 0 = true → (dieWait s.tick h).ovd = false) →
        (x.who = .scp sp → ∀ g, (s.sp sp).pend = .remote h.tag none g →
          (h.typ = 2 → ∃ t, exec (.rdata h d) s = .next t ∧ closed t
            ∧ t.sp sp = { s.sp sp with pend := .remote h.tag (some (.data d)) g })
          ∧ (h.typ = 7 → ∃ t, exec (.adata h d) s = .next t ∧ closed t
            ∧ t.sp sp = { s.sp sp with pend := .remote h.tag (some (.data d)) g }))
        ∧ (∀ rec, x.who = .weak sp rec → d = [] →
          (h.typ = 8 → ∃ t, exec (.ack h) s = .next t ∧ closed t ∧ t.sps = s.sps)
          ∧ (h.typ = 9 → ∃ t, exec (.nak h) s = .next t ∧ closed t
            ∧ (t.sp sp).sto = { (s.sp sp).sto with records := (s.sp sp).sto.records ++ [{ rec with cause := h.cause }] }))
        ∧ (∀ kern, x.who = .window sp k kern → d = [] →
          let w := (s.sp sp).r.win[k]
          (h.typ = 8 → ∃ t, exec (.ack h) s = .next t ∧ closed t
            ∧ ((t.sp sp).r.win[k]).outst.toNat = w.outst.toNat - 1 ∧ ((t.sp sp).r.win[k]).err = w.err)
          ∧ (h.typ = 9 → ∃ t, exec (.nak h) s = .next t ∧ closed t
            ∧ ((t.sp sp).r.win[k]).outst.toNat = w.outst.toNat - 1 ∧ ((t.sp sp).r.win[k]).err = true
            ∧ ((t.sp sp).r.win[k]).ecause = (if w.err then w.ecause else h.cause))))

/-! ## Time-outs, scheduling, streams, the Dealer, reliability -/

/-- R160, R168, R169, R171, R172: a transaction older than the limit in force when it was issued ends with FABRIC_TIMEOUT,
which a store window keeps as its sticky error; OVD is set in a waiting packet whose slack has run out; a held request
for an absent seat that has waited past its limit is answered with a NAK of cause SRF_ABSENT. A limit counts as it stood
when the wait began (log 86). R178: what a station's arbiter grants. The packet leaves with the slack left of it and OVD
set when none is; among overdue packets one at an input that the overdue round has not seen, of those the one that has
waited longest; else the one of least slack; ties go by the round-robin pointer. R164: of the ORD packets of a stream
only the first that waits is a candidate. R165, R176, R181: packets that stay on the chip take their SEQs from their
stream, the next numbers in order; when they are answered, at the end of the turn, each that is overdue counts in SLKCNT
of its context, and one made with slack 0 always is. The packets of a request that entered at a port have no stream and
slack 1,024, and their answers count nowhere. Which others are overdue is timing (log 115); which accesses make such
packets is log 117. R70, R71, R422: a reader that has waited on an empty line longer than its die's FETIME allows
faults: the strand with F_FE_TIMEOUT, the kernel with KERNEL_FE_TIMEOUT, the copy with COPY_FE_TIMEOUT; one that has not
is not disturbed. A line that fills at that moment: log 65. -/
def Obligations.FabricTimeouts : Prop :=
  (∀ (ssid : BitVec 16) (tag : BitVec 12) (x : Txn) (sp : SpId) (k : Fin 16) (st : StId) (n : Nat) (p : Packet) (y : Held)
        (s : State),
      (s.dev.txns.find? (fun t => t.h.ssid = ssid && t.h.tag = tag) = some x →
        (x.sent + x.limit < s.time →
          ∃ t, exec (.fabricTimeout ssid tag) s = .next t
            ∧ t.dev.txns = s.dev.txns.filter (fun t => !(t.h.ssid = ssid && t.h.tag = tag))
            ∧ (∀ kern, x.who = .window sp k kern →
                t.mem = s.mem ∧ ((t.sp sp).r.win[k]).err = true ∧ ((t.sp sp).r.win[k]).outst.toNat = (s.sp sp).r.win[k].outst.toNat - 1
                ∧ ((t.sp sp).r.win[k]).ecause
                    = if (s.sp sp).r.win[k].err then (s.sp sp).r.win[k].ecause else cFabricTimeout))
        ∧ (s.time ≤ x.sent + x.limit →
            exec (.fabricTimeout ssid tag) s = .refused (.notEnabled "FABRIC_TIMEOUT")))
      ∧ (s.dev.arb[st].wait[n]? = some p → (p.now s.time).h.slack = 0 → p.h.ovd = false →
          ∃ t, exec (.overdue st n) s = .next t ∧ t.mem = s.mem ∧ t.sps = s.sps
            ∧ (t.dev.arb[st]).wait[n]? = some { p with h := { p.h with ovd := true } }
            ∧ ∀ m, m ≠ n → (t.dev.arb[st]).wait[m]? = s.dev.arb[st].wait[m]?)
      ∧ (s.dev.held[n]? = some y → y.srfWait = false → y.limit ≠ 0 → y.since + y.limit < s.time →
          y.h.src ≠ s.dev.accId → s.dev.lanes[(Fin.ofNat 16 y.h.stn.toNat : StId)] ≠ 0 →
          ∃ t z, exec (.srfAbsent n) s = .next t ∧ t.mem = s.mem ∧ t.dev.held = s.dev.held.eraseIdx n
            ∧ (t.dev.arb[(Fin.ofNat 16 y.h.stn.toNat : StId)]).wait
                = (s.dev.arb[(Fin.ofNat 16 y.h.stn.toNat : StId)]).wait ++ [z]
            ∧ z.h.typ = 9 ∧ z.h.cause = cSrfAbsent ∧ z.h.tag = y.h.tag ∧ z.h.ssid = y.h.ssid ∧ z.h.dst = y.h.src))
  ∧ (∀ (st : StId) (s : State),
      let a := s.dev.arb[st]
      let t := grantStation s st
      let left (p : Packet) : Nat := p.h.slack.toNat - (s.time / 16 - p.since / 16)
      let late (p : Packet) : Prop := p.h.ovd = true ∨ left p = 0
      let same (p q : Packet) : Prop := p.h.ord = true ∧ q.h.ord = true ∧ p.h.ssid = q.h.ssid ∧ p.h.src = q.h.src
      let cand (k : Nat) : Prop := k < a.wait.length ∧ ∀ j p q, j < k → a.wait[j]? = some p → a.wait[k]? = some q → ¬ same p q
      let reach (p : Packet) : Nat := (65536 + p.input - a.rr) % 65536
      (a.wait = [] → t = s)
      ∧ (a.wait ≠ [] → ∃ k p, a.wait[k]? = some p ∧ cand k
        ∧ (∃ b, t = { s with dev := { s.dev with arb := s.dev.arb.set st b, fabricOut := t.dev.fabricOut } }
            ∧ b.wait = a.wait.eraseIdx k)
        ∧ (∃ g, t.dev.fabricOut = s.dev.fabricOut ++ [g] ∧ g.data = p.data ∧ g.h.slack.toNat = left p
            ∧ (g.h.ovd = true ↔ late p) ∧ g.h = { p.h with slack := g.h.slack, ovd := g.h.ovd })
        ∧ ((∃ j q, cand j ∧ a.wait[j]? = some q ∧ late q) → late p)
        ∧ (late p → (p.input ∈ a.round → ∀ j q, cand j → a.wait[j]? = some q → late q → q.input ∈ a.round)
            ∧ ∀ j q, cand j → a.wait[j]? = some q → late q → (q.input ∈ a.round → p.input ∈ a.round) →
                p.since ≤ q.since ∧ (p.since = q.since → reach p ≤ reach q))
        ∧ (¬ late p → ∀ j q, cand j → a.wait[j]? = some q →
            left p ≤ left q ∧ (left p = left q → reach p ≤ reach q))))
  ∧ (∀ (ctx : CtxId) (ssid : BitVec 16) (slack : BitVec 12) (a n : Nat) (p : ChipPkt) (s : State),
      let q (x : BitVec 16) : BitVec 48 := (assoc? s.dev.seqs x).getD 0
      let t := s.chip ctx ssid slack n
      let u := settleChip s
      let w := s.chipPort ctx a n
      (0 < n → t = { s with dev := { s.dev with seqs := t.dev.seqs, chip := t.dev.chip } }
        ∧ assoc? t.dev.seqs ssid = some (q ssid + BitVec.ofNat 48 n) ∧ (∀ x, x ≠ ssid → assoc? t.dev.seqs x = assoc? s.dev.seqs x)
        ∧ ∃ l : List ChipPkt, t.dev.chip = s.dev.chip ++ l ∧ l.length = n
          ∧ ∀ (k : Nat) (y : ChipPkt), l[k]? = some y → y = ⟨ctx, some (ssid, q ssid + BitVec.ofNat 48 (k + 1)), slack⟩)
      ∧ (s.dev.chip = [] → u = s)
      ∧ (0 < n → n ≤ 256 - a % 256 → w = { s with dev := { s.dev with chip := s.dev.chip ++ [(⟨ctx, none, 1024⟩ : ChipPkt)] } })
      ∧ (s.dev.chip = [p] → p.strm = none → u = { s with dev := { s.dev with chip := [] } })
      ∧ (s.dev.chip = [p] → p.strm.isSome = true → u.dev.chip = [] ∧ (∀ x, x ≠ p.ctx → (u.ctx x).slkcnt = (s.ctx x).slkcnt)
        ∧ (p.slack = 0 → (u.ctx p.ctx).slkcnt = (s.ctx p.ctx).slkcnt + 1)
        ∧ ((u.ctx p.ctx).slkcnt = (s.ctx p.ctx).slkcnt ∨ (u.ctx p.ctx).slkcnt = (s.ctx p.ctx).slkcnt + 1)))
  ∧ (∀ (sp : SpId) (ch : ChId) (k : KRun) (c : CopyRun) (a l : Nat) (s : State),
      ((s.sp sp).pend = .line a l →
        (a + l < s.time → exec (.feTimeout (.scp sp)) s = .next (failStrand s sp cFFeTimeout))
        ∧ (s.time ≤ a + l → exec (.feTimeout (.scp sp)) s = .refused (.notEnabled "FE_TIMEOUT")))
      ∧ ((s.sp sp).ke.run = some k → k.since = some (a, l) → a + l < s.time →
          exec (.feTimeout (.kernel sp)) s = .next (kernelFault s sp cKernelFeTimeout))
      ∧ ((s.sp sp).str.chans[ch].run = some c → c.pend = .line a l → a + l < s.time → c.stop = none →
          ∃ t, exec (.feTimeout (.copy sp ch)) s = .next t ∧ t.mem = s.mem ∧ (∀ i, i ≠ sp → t.sp i = s.sp i)
            ∧ ((t.sp sp).str.chans[ch]).run = some { c with stop := some cCopyFeTimeout, pend := .none }))

/-- R59, R60, R210, R211, R220, R221: the scheduler's time-outs. An ageing interval is INTERVAL microseconds of time; the
live launches of a context with work and no progress within its WD, and those that depend on them, are halted with
WATCHDOG_HANG; a gang that has not met a pre-emption request within PRE is stopped at once, and its save is in progress;
one whose save has not ended within SAVE leaves its SPs to be resumed from its checkpoints, its records SUSPENDED with
RB = 1 and SEQ + 1; a gang whose save is late and that cannot roll back is FAILED, or LOST_AT_SAVE when it has no image.
The model's readings: the watchdog stands while a context has no work (log 68), the record of a lost gang (log 70). -/
def Obligations.SchedulerTimeouts : Prop :=
  ∀ (d : DieId) (x : CtxId) (gi : Nat) (g : Gang) (r : PreemptReq) (t0 : Nat) (s : State),
    let wd (n : Nat) (c : CtxId) : Nat := (s.ctx c).ctxwd.toNat / 2 ^ (16 * n) % 2 ^ 16
    let leaves (t : State) : Prop := ∃ h, t.gangs[gi]? = some h ∧ h.live = g.live ∧ h.resume = true ∧ h.saveAt = none
      ∧ (∀ q ∈ h.seats, q.sp = none)
      ∧ ((g.seats.filterMap Seat.sp).Nodup → ∀ (n : Nat) (q : Seat) (sp : SpId), g.seats[n]? = some q → q.sp = some sp →
          (s.sp sp).run ≠ .parked → ∃ q', h.seats[n]? = some q' ∧ q'.status = .suspended ∧ q'.rb = true ∧ q'.pc = q.ckpc
            ∧ q'.cause = 0 ∧ q'.seq = q.seq + 1)
    (∃ t, exec (.ageingInterval d) s = .next t ∧ t.mem = s.mem ∧ t.sps = s.sps
        ∧ t.time = s.time + (s.die d).dispage.toNat % 2 ^ 20 * 1000)
    ∧ ((s.ctx x).alive = true → hasWork s x = true → saving s x = false →
        ((s.ctx x).progress + wd 0 x * 1000000 < s.time →
          ∃ t, exec (.watchdogHang x) s = .next t ∧ (t.ctx x).progress = s.time
            ∧ ∀ k l, k ∈ jobOf s (hangSeed s x) → s.launches[k]? = some l → l.phase ≠ .done → l.phase ≠ .failed →
                LaunchHalted t k cWatchdogHang)
        ∧ (∀ k l, s.launches[k]? = some l → l.ctx = x → (l.phase = .accepted ∨ l.phase = .running) →
            k ∈ jobOf s (hangSeed s x))
        ∧ (s.time ≤ (s.ctx x).progress + wd 0 x * 1000000 →
            exec (.watchdogHang x) s = .refused (.notEnabled "WATCHDOG_HANG")))
    ∧ (s.gangs[gi]? = some g → g.live = true → (∃ q ∈ g.seats, q.sp ≠ none) →
        ((s.ctx g.ctx).preempt = some r → gangNoRb s g = false → (∀ q ∈ g.seats, seatForced s q = false) →
            r.since + wd 1 g.ctx * 1000 < s.time →
          ∃ t h, exec (.forcedStop gi) s = .next t ∧ t.gangs[gi]? = some h ∧ h.live = g.live
            ∧ h.saveAt = some (g.saveAt.getD s.time)
            ∧ (∀ q ∈ g.seats, ∀ sp, q.sp = some sp → (s.sp sp).run ≠ .parked → (t.sp sp).run = .stopped .forced)
            ∧ (t.ctx g.ctx).preempt = some { r with forced := true })
        ∧ (g.saveAt = some t0 → t0 + wd 2 g.ctx * 1000 < s.time →
          ∃ t, exec (.saveTimeout gi) s = .next t
            ∧ (gangNoImage s g = true → ∃ h, t.gangs[gi]? = some h ∧ h.live = false
                ∧ ∀ q ∈ h.seats, q.status = .lostAtSave ∧ q.sp = none)
            ∧ (gangNoImage s g = false → gangNoRb s g = true → ∃ h, t.gangs[gi]? = some h ∧ h.live = false
                ∧ ∀ q ∈ h.seats, q.status = .failed ∧ q.sp = none)
            ∧ (gangNoImage s g = false → gangNoRb s g = false → leaves t)))

/-- R28, R49, R50, R51, R59, R214: a dispatch decision whose candidate fits, a ready task or a walker's next tile, forms its
gang on free SPs of the die; one that does not fit is held for; with no candidate, a die asks the donor of the largest
range for half of it; with nothing to do there is no decision. R48 to R52, R63, R194, R311: a donor gives the upper half
of a range of at least 2·GRAIN to a die that has capacity, and nothing else; the thief's walker takes what it is given,
or is free again; a range that is granted while its context is being pre-empted is captured. After a pre-emption the
pool entries return, as far as their pools have room (R7; log 134), every READY task is in a ready queue, and no Dealer
operation stays saved whose launch has no gang. Pools are in order, an entry waits while one that its strand pushed
before it is undispatched (log 61). Which saved operations wait for a gang is log 109. -/
def Obligations.Dispatching : Prop :=
  (∀ (d : DieId) (place : Placement) (l : Launch) (x : Task) (li idx : Nat) (c : DispCand) (w : Fin 16) (r : Range)
        (s : State),
      let run := exec (.dispatchDecision d place) s
      let forms (t : State) : Prop := ∃ g, t.gangs[s.gangs.length]? = some g ∧ g.launch = li ∧ g.ctx = l.ctx ∧ g.die = d
        ∧ g.tindex = BitVec.ofNat 32 idx ∧ g.x = x.x ∧ g.y = x.y ∧ g.z = x.z ∧ g.w = x.w ∧ g.size = l.r.gsize
        ∧ g.args = if x.args = 0 then l.r.args else x.args
      (s.launch? li = some l → l.tasks[idx]? = some x →
        (decision s d = .run (.task li idx) ∨ (∃ o, decision s d = .steal o (.task li idx))) →
        (placementOk s d l.r.gsize place = true → ∃ t, run = .next t ∧ forms t)
        ∧ (placementOk s d l.r.gsize place = false → run = .refused (.notEnabled "DISPATCH_DECISION")))
      ∧ (∀ (i : Fin 16) (lo hi k : Nat) (y : Tile), decision s d = .run (.walker i li) → s.launch? li = some l →
          l.r.kind = 0 → (s.die d).walkers[i] = .active li lo hi → l.r.nextTile hi (hi - lo) lo = some (k, y) →
          placementOk s d l.r.gsize place = true →
          ∃ t g, run = .next t ∧ t.gangs[s.gangs.length]? = some g ∧ g.launch = li ∧ g.ctx = l.ctx ∧ g.die = d
            ∧ g.tindex = BitVec.ofNat 32 k ∧ g.x = BitVec.ofNat 16 y.x ∧ g.y = BitVec.ofNat 16 y.y
            ∧ g.z = BitVec.ofNat 16 y.z ∧ g.w = BitVec.ofNat 16 y.w ∧ g.size = l.r.gsize ∧ g.args = l.r.args
            ∧ (hi ≤ k + 1 → (t.die d).walkers[i] = .free)
            ∧ (l.r.tileLeft (k + 1) hi = true → (t.die d).walkers[i] = .active li (k + 1) hi))
      ∧ (decision s d = .hold c → ∃ t, run = .next t ∧ t.mem = s.mem ∧ t.gangs = s.gangs ∧ (t.die d).keep = some c)
      ∧ (decision s d = .split w r → ∃ t, run = .next t ∧ t.mem = s.mem ∧ t.gangs = s.gangs
          ∧ (t.die d).walkers[w] = .reserved ∧ t.dev.splits = s.dev.splits ++ [⟨r.die, r.walker, d, w⟩])
      ∧ (decision s d = .nothing → run = .refused (.notEnabled "DISPATCH_DECISION")))
  ∧ (∀ (od d : DieId) (ow w : Fin 16) (l : Launch) (li lo hi : Nat) (rest : List Nat) (x : CtxId) (u : State) (s : State),
      let len := hi - lo
      let mid := lo + (len + 1) / 2
      let q : SplitReq := ⟨od, ow, d, w⟩
      let mine : SplitGrant := ⟨d, w, some (li, lo, hi)⟩
      (q ∈ s.dev.splits →
        ((s.die od).walkers[ow] = .active li lo hi → s.launch? li = some l → 2 * l.r.grain.toNat ≤ len →
          capacity s l.r.gsize d ≠ 0 →
          ∃ t, exec (.split od ow d w) s = .next t ∧ (t.die od).walkers[ow] = .active li lo mid
            ∧ t.dev.grants = s.dev.grants ++ [⟨d, w, some (li, mid, hi)⟩] ∧ q ∉ t.dev.splits)
        ∧ (((∃ l, s.launch? li = some l ∧ (s.die od).walkers[ow] = .active li lo hi
                ∧ (len < 2 * l.r.grain.toNat ∨ capacity s l.r.gsize d = 0))
              ∨ ∀ a b c, (s.die od).walkers[ow] ≠ .active a b c) →
          ∃ t, exec (.split od ow d w) s = .next t ∧ t.dies = s.dies
            ∧ t.dev.grants = s.dev.grants ++ [⟨d, w, none⟩] ∧ q ∉ t.dev.splits))
      ∧ (s.dev.grants.find? (fun g => g.die = d && g.walker = w) = some ⟨d, w, none⟩ →
          ∃ t, exec (.splitGrant d w) s = .next t ∧ (t.die d).walkers[w] = .free)
      ∧ (s.dev.grants.find? (fun g => g.die = d && g.walker = w) = some mine → s.launch? li = some l →
          capacity s l.r.gsize d ≠ 0 →
          ((s.ctx l.ctx).preempt = none →
            ∃ t, exec (.splitGrant d w) s = .next t ∧ (t.die d).walkers[w] = .active li lo hi)
          ∧ ((s.ctx l.ctx).preempt.isSome = true →
              (∀ g ∈ s.dev.grants.erase mine, ∀ r, g.range = some r → r.1 ≠ li) →
            ∃ t, exec (.splitGrant d w) s = .next t ∧ (t.die d).walkers[w] = .free
              ∧ ⟨li, lo, hi, w.val, d⟩ ∈ (t.ctx l.ctx).saved))
      ∧ ((s.ctx x).preempt = none → ((s.ctx x).saved ≠ [] ∨ (∃ y ∈ (s.ctx x).savedPool, (s.die y.1).pool.length < 4096)
            ∨ (s.ctx x).rebuild = true) →
          ∃ t, exec (.walkerRestore x) s = .next t ∧ (∀ y ∈ (t.ctx x).saved, y ∈ (s.ctx x).saved)
            ∧ (∀ y ∈ (s.ctx x).savedPool, y.2 ∈ (t.die y.1).pool ∨ y ∈ (t.ctx x).savedPool)
            ∧ (∀ e : DieId, (s.die e).pool.length ≤ 4096 → (t.die e).pool.length ≤ 4096)
            ∧ ((∀ e : DieId, (s.die e).pool.length + (s.ctx x).savedPool.length ≤ 4096) → (t.ctx x).savedPool = [])
            ∧ (t.ctx x).savedOps = (s.ctx x).savedOps.filter (fun o => (o.2.launch.map (hasGang s)).getD false)
            ∧ ((s.ctx x).rebuild = false → t.mem = s.mem)
            ∧ ((s.ctx x).rebuild = true → ∀ (k : Nat) (m : Launch) (i : Nat) (y : Task), s.launches[k]? = some m → m.ctx = x →
                m.phase = .running → (∃ e : DieId, capacity s m.r.gsize e ≠ 0) → m.tasks[i]? = some y → y.status = .ready →
                ∃ e : DieId, ⟨k, i⟩ ∈ (t.die e).ready))
      ∧ ((s.die d).pool = li :: rest → s.launch? li = some l → (s.ctx l.ctx).preempt = none → dispatchLaunch s li = .ok u →
          (∀ (k : Nat) (m : Launch), k < li → s.launches[k]? = some m → m.pusher.isSome = true → m.pusher = l.pusher →
            m.phase = .accepted → m.gone = true) →
          ∃ t, exec (.poolDispatch d) s = .next t ∧ t.mem = u.mem ∧ t.launches = u.launches
            ∧ (t.die d).pool = (u.die d).pool.filter (· != li))
      ∧ (∀ (k : Nat) (m : Launch), (s.die d).pool = [li] → s.launch? li = some l → k < li → s.launches[k]? = some m →
          m.pusher.isSome = true → m.pusher = l.pusher → m.phase = .accepted → m.gone = false →
          exec (.poolDispatch d) s = .refused (.notEnabled "POOL_DISPATCH")))

/-- R24, R26, R27, R28, R31, R213, R214: a gang that is formed on every SP is released together; one whose seats all stand
at suspension points is written back with SEQ + 1 in every record and save-area header, and leaves its SPs, and one that
was stopped at once rolls back to its checkpoints (R210, R211); a gang whose seats are all SUSPENDED or PARKED and whose
records are sound takes the SPs chosen, one whose records are not ends with CONT_RECORD_BAD, and one with a seat BLOCKED
or FAULTED stays off; a repair that is complete turns FAULTED into SUSPENDED with CAUSE 0, in the record in memory too.
Of the order of the dispatcher (log 62) and the area's sections (log 17) nothing is stated. -/
def Obligations.GangsComeAndGo : Prop :=
  ∀ (gi : Nat) (g : Gang) (l : Launch) (d : DieId) (place : Placement) (kim : List (Nat × BundleWord)) (s : State),
    s.gangs[gi]? = some g →
    (gangFormed s g = true → (g.seats.filterMap Seat.sp).Nodup →
      ∃ t h, exec (.gangRelease gi) s = .next t ∧ t.gangs[gi]? = some h
        ∧ h.seats = g.seats.map (fun q =>
            { q with status := if q.status = .parked then .parked else .running, rb := false, cause := 0 })
        ∧ ∀ q ∈ g.seats, ∀ sp, q.sp = some sp → (t.sp sp).run = if q.status = .parked then .parked else .running)
    ∧ (gangSaved s g = true → (∃ q ∈ g.seats, seatForced s q = true) →
        ∃ t h, exec (.gangWriteBack gi) s = .next t ∧ t.gangs[gi]? = some h ∧ h.live = true ∧ h.resume = true
          ∧ h.saveAt = none ∧ (∀ q ∈ h.seats, q.sp = none)
          ∧ ((g.seats.filterMap Seat.sp).Nodup → ∀ (n : Nat) (q : Seat) (sp : SpId), g.seats[n]? = some q → q.sp = some sp →
              (s.sp sp).run ≠ .parked → ∃ q', h.seats[n]? = some q' ∧ q'.status = .suspended ∧ q'.rb = true
                ∧ q'.pc = q.ckpc ∧ q'.cause = 0 ∧ q'.seq = q.seq + 1))
    ∧ (gangSaved s g = true → (∀ q ∈ g.seats, seatForced s q = false) →
        ∃ t h, exec (.gangWriteBack gi) s = .next t ∧ t.gangs[gi]? = some h ∧ h.live = true ∧ h.resume = true
          ∧ h.saveAt = none ∧ h.size = g.size ∧ (∀ q ∈ h.seats, q.sp = none)
          ∧ ∀ (n : Nat) (q : Seat) (sp : SpId), g.seats[n]? = some q → q.sp = some sp →
              ∃ q' a, h.seats[n]? = some q' ∧ q'.pc = (s.sp sp).r.pc ∧ q'.rb = false ∧ q'.seq = q.seq + 1
                ∧ q'.area = some a ∧ a.seq = q'.seq
                ∧ match (s.sp sp).run with
                  | .stopped (.twait _) => q'.status = .blocked ∧ q'.cause = 0 ∧ a.kind = 1
                  | .stopped (.fault c) => q'.status = .faulted ∧ q'.cause = c ∧ a.kind = 1
                  | .stopped (.ckpt _) => q'.status = .suspended ∧ q'.cause = 0 ∧ a.kind = 2
                  | .parked => q'.status = .parked ∧ q'.cause = 0 ∧ a.kind = 1
                  | _ => q'.status = .suspended ∧ q'.cause = 0 ∧ a.kind = 1)
    ∧ (∀ a : SaveArea, field a.bytes 0 8 = a.seq.toNat ∧ field a.bytes 8 1 = a.kind.toNat
        ∧ field a.bytes 9 3 = (if a.kst.isSome then 1 else 0) ∧ field a.bytes 12 4 = a.bytes.length % 2 ^ 32
        ∧ (a.bytes.drop 16).take 48 = List.replicate 48 0)
    ∧ (resumable s g = true → resumeTurn s gi g d = true → placementOk s d g.size place = true →
        s.launch? g.launch = some l →
        let s1 := if d = g.die then setKeep s d none else s
        ∃ t h, exec (.gangResume gi d place) s = .next t ∧ t.gangs[gi]? = some h
          ∧ (recordsOk s1 g = false → h.live = false ∧ (∀ q ∈ h.seats, q.status = .failed ∧ q.sp = none)
              ∧ ∀ q, h.seats[0]? = some q → q.cause = cContRecordBad)
          ∧ (recordsOk s1 g = true → loadImages s1 g.ctx (kimLoads s1 g.ctx l.r) = .ok kim →
              h.live = true ∧ h.die = d ∧ h.seats.map Seat.sp = place.map some
              ∧ h.seats.map Seat.seq = g.seats.map Seat.seq
              ∧ ∀ sp ∈ place, (t.sp sp).run = .formed ∧ (t.sp sp).gang = some gi))
    ∧ (∀ (n : Nat) (q : Seat) (b : List Byte), g.seats[n]? = some q → gRead s .none g.ctx .device q.recAt.toNat 64 = .ok b →
        field b 8 1 = 0 ∨ 9 < field b 8 1 ∨ field b 8 8 / 2 ^ 22 % 16 ≠ n ∨ field b 8 8 / 2 ^ 52 ≠ 0 ∨ field b 0 8 % 8 ≠ 0
          ∨ (q.status ≠ .new ∧ field b 32 8 = 0)
          ∨ (q.status ≠ .new ∧ ∃ a, gRead s .none g.ctx .device (field b 32 8) 8 = .ok a ∧ leNat a ≠ field b 56 8) →
        recordsOk s g = false)
    ∧ ((∃ q ∈ g.seats, q.status = .blocked ∨ q.status = .faulted ∨ q.sp.isSome = true) →
        exec (.gangResume gi d place) s = .refused (.notEnabled "GANG_RESUME"))
    ∧ (g.live = true → (∃ q ∈ g.seats, q.status = .faulted) →
        (∀ q ∈ g.seats, q.status = .faulted → seatRepaired s g q = true) →
        ∃ t h, exec (.repairComplete gi) s = .next t ∧ t.gangs[gi]? = some h
          ∧ h.seats = g.seats.map (fun q => if q.status = .faulted then { q with status := .suspended, cause := 0 } else q)
          ∧ ∀ q lf, g.seats = [q] → s.launch? g.launch = some l → q.recAt.toNat % 64 = 0 →
              translate s .none g.ctx q.recAt.toNat .write .device = .ok lf → lf.kind = 0 ∨ lf.kind = 3 →
              let b := t.physRead (lf.pa q.recAt.toNat) 64
              SameMemBut s t (lf.pa q.recAt.toNat) 64 ∧ field b 0 8 = q.pc.toNat
              ∧ field b 8 8 = 3 + l.r.kind.toNat * 2 ^ 8 + l.r.glog.toNat * 2 ^ 26 + (if q.rb then 2 ^ 29 else 0)
                  + q.ckoff.toNat * 2 ^ 32
              ∧ field b 16 8 = g.x.toNat + g.y.toNat * 2 ^ 16 + g.z.toNat * 2 ^ 32 + g.w.toNat * 2 ^ 48
              ∧ field b 24 8 = g.args.toNat ∧ field b 32 8 = q.save.toNat ∧ field b 40 8 = q.ckpc.toNat
              ∧ field b 48 8 = l.r.launchId.toNat + g.tindex.toNat * 2 ^ 32 ∧ field b 56 8 = q.seq.toNat)

/-- R156, R201, R203, R205: the host's bytes for a page that Equinox has asked for fill a free frame, and a lookup then
finds the page; an access that waits for a page that the host refuses ends with HOST_PAGE_ERROR, and so it does when the
answer comes after FABTIME.LIMIT or when no frame is free. An answer for a page that has been unmapped since ends the
request and nothing else (R237). Delivered store faults that can be performed are performed in ascending SEQ, and none
is left; a unit acknowledges every shootdown it owes and keeps no translation of the range. The entry that Equinox keeps
for a HOST page is the model's (log 9). -/
def Obligations.PagesAndShootdowns : Prop :=
  ∀ (x : CtxId) (va : W64) (d : List Byte) (a e p n since limit : Nat) (sp : SpId) (y : Shootdown) (s : State),
    let base := va.toNat / p * p
    let b := askOver s x base p
    let root : Nat := (b.ctx x).ptbase.toNat / 2 ^ 14 % 2 ^ 32 * 2 ^ 14
    (hostEntry s x va.toNat = some (a, e, p) → askSent s x base p = some (since, limit) →
      (∀ (t1 t2 t3 fr w : Nat), let leaf := t3 + 8 * tableIdx base 3
        p = 0x1000 → x ≠ 0 → d.length = 0x1000 → s.time ≤ since + limit → TablePath b.mem root base t1 t2 t3 →
        e % 4 = 2 → e / 2 ^ 2 % 4 = 3 → e / 2 ^ 4 % 4 ≠ 3 → e / 2 ^ 9 % 8 = 0 →
        findFrame b (if e / 2 ^ 6 % 2 = 1 then some (Fin.ofNat 4 (e / 2 ^ 46 % 4)) else none) 0x1000 = some fr →
        fr < 2 ^ 46 → fr % 0x1000 = 0 →
        (∀ k ∈ [root + 8 * tableIdx base 0, t1 + 8 * tableIdx base 1, t2 + 8 * tableIdx base 2, leaf],
          k + 8 ≤ fr ∨ fr + 0x1000 ≤ k) →
        (∀ r ∈ b.dev.results, ¬ (r.ctx = x ∧ onPage base p r.addr.toNat = true)) → base ≤ w → w < base + 0x1000 →
        ∃ t lf, exec (.hostPageIn x va (some d)) s = .next t ∧ walk t x w = .ok lf ∧ lf.base = base ∧ lf.psize = 0x1000
          ∧ lf.pte = e % 2 ^ 12 + 1 + fr ∧ t.physRead fr 0x1000 = d
          ∧ (∀ i, (i < fr ∨ fr + 0x1000 ≤ i) → (i < leaf ∨ leaf + 8 ≤ i) → memByte t.mem i = memByte b.mem i)
          ∧ (∀ (k : Nat) (l : Launch) (v : W64), s.launches[k]? = some l → l.ctx = x → l.wait = some v →
              onPage base p v.toNat = true → (t.launches[k]?).map Launch.wait = some none))
      ∧ (∀ (gi : Nat) (g : Gang) (q : Seat) (c : Cause) (v : W64),
          (s.sp sp).id.ctx = x → (s.sp sp).gang = some gi → s.gangs[gi]? = some g → (s.sp sp).id.seat.toNat = n →
          g.seats[n]? = some q → q.sp = some sp → (s.sp sp).run = .stopped (.fault c) → (s.sp sp).pend = .repair c v →
          base ≤ v.toNat → v.toNat < base + p → (∀ i, i ≠ sp → (s.sp i).id.ctx ≠ x ∨ (s.sp i).run = .idle) →
          ∃ t h, exec (.hostPageIn x va none) s = .next t ∧ t.gangs[gi]? = some h ∧ h.live = false
            ∧ (∀ i ∈ h.seats, i.status = .failed ∧ i.sp = none) ∧ (h.seats[n]?).map Seat.cause = some cHostPageError)
      ∧ (since + limit < s.time ∨ pageIn b e p x base (d.take p) = none →
          exec (.hostPageIn x va (some d)) s = exec (.hostPageIn x va none) s))
    ∧ (hostEntry s x va.toNat = none ∨ (hostEntry s x va.toNat = some (a, e, p) ∧ askSent s x base p = none) →
        let stray := s.dev.pageAsks.find? fun z => z.ctx = x && z.va = va && z.sent.isSome
        (stray = none → exec (.hostPageIn x va (some d)) s = .refused (.notEnabled "HOST_PAGE_IN")
          ∧ exec (.hostPageIn x va none) s = .refused (.notEnabled "HOST_PAGE_IN"))
        ∧ ∀ z, stray = some z → ∃ t, exec (.hostPageIn x va (some d)) s = .next t
            ∧ exec (.hostPageIn x va none) s = .next t ∧ t.dev.pageAsks = s.dev.pageAsks.erase z ∧ t.sps = s.sps)
    ∧ (let o := s.sp sp
      let c := o.id.ctx
      let put (w : State) (r : SfRecord) (lf : Leaf) : State :=
        w.physWrite (lf.pa r.va.toNat) (leBytes (2 ^ r.size.toNat) r.data.toNat)
      o.sto.delivered = true → o.run = .running → (∀ r ∈ o.sto.records, recordFix s c r = .ready) →
      ∀ (r1 r2 : SfRecord) (lf1 lf2 : Leaf), translate s .none c r1.va.toNat .write .scp = .ok lf1 → lf1.kind ≠ 1 →
        (o.sto.records = [r1] →
          ∃ t, exec (.storeFaultReplay sp) s = .next t ∧ t.mem = (put s r1 lf1).mem ∧ (t.sp sp).sto.records = []
            ∧ (t.sp sp).sto.delivered = false)
        ∧ (o.sto.records = [r1, r2] ∨ o.sto.records = [r2, r1] → r1.seq.toNat < r2.seq.toNat →
            translate (put s r1 lf1) .none c r2.va.toNat .write .scp = .ok lf2 → lf2.kind ≠ 1 →
          ∃ t, exec (.storeFaultReplay sp) s = .next t ∧ t.mem = (put (put s r1 lf1) r2 lf2).mem
            ∧ (t.sp sp).sto.records = [] ∧ (t.sp sp).sto.delivered = false))
    ∧ (unitBusy s (.sp sp) = false → s.dev.shoots.filter (fun z => z.left.contains (TlbUnit.sp sp)) = [y] →
        ∃ t, exec (.shootdownAck (.sp sp)) s = .next t
          ∧ (∀ z ∈ t.dev.shoots, TlbUnit.sp sp ∉ z.left)
          ∧ ∀ n ∈ (t.sp sp).tlb, ¬ (n.ctx = y.ctx ∧ n.base < y.hi ∧ y.lo < n.base + n.psize))
    ∧ ∀ k : DieId, unitBusy s (.die k) = false → s.dev.shoots.filter (fun z => z.left.contains (TlbUnit.die k)) = [y] →
        ∃ t, exec (.shootdownAck (.die k)) s = .next t ∧ t.mem = s.mem
          ∧ (∀ z ∈ t.dev.shoots, TlbUnit.die k ∉ z.left)
          ∧ ∀ n ∈ (t.die k).l2, ¬ (n.ctx = y.ctx ∧ n.base < y.hi ∧ y.lo < n.base + n.psize)

/-- R82 to R85, R87, R305, R358, R361, R362: the head of a channel's queue starts when its scoreboard wait is over; when its
pattern is moved, the channel's WP takes in what was not counted and its tag completes with its cause; an sfence
completes when the copies it names are over; a kload starts, and when its last bundle is written it enters the KIM map.
R69, R70, R82, R84, R134, R137: what the turns of a copy do. Element by element in loop order, the addresses are those
of R82 with each index times its stride once (log 36). GATHER, SCATTER and BGATHER first take the row's entry of the
index list from the SRF. LOAD, GATHER and BGATHER move bytes of a page of this accelerator into a line, STORE and
SCATTER bytes of a full line to such a page; WP counts them, and no other byte changes. The copy's last byte in a line
makes it full, the last that a CONSUME copy reads of a line makes it empty, and an empty line makes the copy wait. NET
gathers bytes of full lines, and when all are there sends them as one RDMA WRITE to its peer (log 116), to the address
of its first element (the model's reading, log 16); an answer that it was not taken is COPY_NET_ERROR. An add of SADD is
one FP32 sum, rounded to nearest even. How many bytes a turn moves is the model's (log 49). -/
def Obligations.StreamsRun : Prop :=
  (∀ (sp : SpId) (ch : ChId) (tag : TagId) (o : StreamOp) (l : List StreamOp) (r : CopyRun) (kb : BitVec 12)
        (src n : W64) (s : State),
      let x := (s.sp sp).str
      let x1 := ((copySettle s sp ch).sp sp).str
      (copyReady x ch = true → x.chans[ch].queue = o :: l →
        let b := copyBegin (coverTags s sp o.wait) sp ch
        exec (.copyStart sp ch) s = .next (copyTurn b sp ch)
          ∧ ((b.sp sp).str.chans[ch]).queue = l
          ∧ ((b.sp sp).str.chans[ch]).run = some ⟨o, none, 0, .none, [], [], .gathering, none, [], [], none⟩)
      ∧ (copyReady x ch = false → exec (.copyStart sp ch) s = .refused (.notEnabled "COPY_START"))
      ∧ (x1.chans[ch].run = some r → r.over = true →
          ∃ t, exec (.copyEnd sp ch) s = .next t
            ∧ let c := ((t.sp sp).str.chans[ch])
              c.run = none ∧ c.wp = x1.chans[ch].wp + BitVec.ofNat 48 r.left ∧ c.part = r.cut
              ∧ c.err = (x1.chans[ch].err || r.failure.isSome) ∧ c.cause = r.failure.getD x1.chans[ch].cause
              ∧ ∀ i, r.op.tag = some i →
                  (t.sp sp).str.tags[i] = ⟨false, r.failure.map fun k => (r.op.num, k)⟩
                  ∧ (t.ctx (s.sp sp).id.ctx).progress = s.time)
      ∧ (x.fences.find? (fun f => f.tag = some tag) = some o → sfenceReady x o = true →
          ∃ t, exec (.sfenceComplete sp tag) s = .next t ∧ t.mem = s.mem
            ∧ (t.sp sp).str.fences = x.fences.filter (fun f => f.num != o.num)
            ∧ ((t.sp sp).str.tags[tag]).pending = false)
      ∧ (kloadReady (s.sp sp) = true → x.kimq = o :: l →
          ∃ t, exec (.kloadStart sp) s = .next t ∧ t.mem = s.mem ∧ (t.sp sp).str.kimq = l
            ∧ (t.sp sp).str.kload = some (o, 0))
      ∧ (x.kload = some (o, n.toNat) → o.body = .kload kb src n →
          ∃ t, exec (.kloadComplete sp) s = .next t ∧ t.mem = s.mem ∧ (t.sp sp).str.kload = none
            ∧ (t.sp sp).str.kmap = x.kmap ++ [⟨src, kb, n.toNat⟩]
            ∧ ∀ i, o.tag = some i → (t.sp sp).str.tags[i] = ⟨false, none⟩))
  ∧ (∀ (sp q : SpId) (ch : ChId) (r : CopyRun) (t : Template) (lf : Leaf) (off x : Nat) (s : State),
      let p := s.sp sp
      let c := p.str.chans[ch]
      let param := r.op.copyOf.2.1
      let wide := t.c 0 * t.eb
      let row := r.pos / wide
      let o := r.pos % wide
      let sa := t.src param row x + BitVec.ofNat 64 o
      let da := t.dst row x + BitVec.ofNat 64 o
      let listed (i : Nat) : Nat := (t.idx.toNat + 4 * i) % 2 ^ 64
      let fresh : Prop := r.ent.map Prod.fst ≠ some row
      let u := copyTurn s sp ch
      let ran : Option CopyRun := (u.sp sp).str.chans[ch].run
      let after (n : Nat) : Prop := (u.sp sp).str.chans[ch].wp = c.wp + BitVec.ofNat 48 n
          ∧ ∃ r', ran = some r' ∧ r'.pos = r.pos + n ∧ r'.stop = none ∧ r'.t = some t
      (∀ (i1 i2 i3 x : Nat), i1 < t.c 1 → i2 < t.c 2 →
        let k := i1 + t.c 1 * (i2 + t.c 2 * i3)
        let st (v : Vector W32 3) (j : Fin 3) : Int := v[j].toInt
        t.src param k x = t.sbase + BitVec.ofInt 64 (param.toInt * 2 ^ t.esize.toNat + i3 * st t.sstr 2
            + (if t.kind = 5 then (x : Int) else i2) * st t.sstr 1 + (if t.kind = 2 then (x : Int) else i1) * st t.sstr 0)
        ∧ t.dst k x = t.dbase + BitVec.ofInt 64 (i3 * st t.dstr 2 + i2 * st t.dstr 1
            + (if t.kind = 3 ∨ t.kind = 4 then (x : Int) else i1) * st t.dstr 0)
        ∧ t.idxOf k = if t.kind = 2 ∨ t.kind = 3 ∨ t.kind = 4 then some i1 else if t.kind = 5 then some i2 else none)
      ∧ (c.run = some r → r.t = some t → r.stop = none → r.ahead = [] → r.pkts = [] → r.adds = [] → r.pend = .none →
          r.pos < t.bytes →
        let entry : Prop := match t.idxOf row with
          | none => x = 0
          | some i => r.ent = some (row, x) ∨ (fresh ∧ ∃ (z : SpId) (f : Nat), s.fDecode sp (listed i) = .srf z f
              ∧ (s.sp z).full f = true ∧ x = leNat ((s.sp z).fBytes f 4))
        let waits (a : Nat) : Prop := ((t.kind = 1 ∨ t.kind = 6) ∧ a = sa.toNat)
          ∨ ∃ i, t.idxOf row = some i ∧ fresh ∧ a = listed i
        ((t.kind = 0 ∨ t.kind = 2 ∨ t.kind = 5) → entry →
          translate s (.sp sp) p.id.ctx sa.toNat .read (.copy false) = .ok lf → lf.kind = 0 ∨ lf.kind = 3 →
          s.fDecode sp da.toNat = .srf q off →
          let n := min (wide - o) (128 - da.toNat % 128)
          n ≤ 256 - sa.toNat % 256 →
          poisoned s.dev.poison (lf.pa sa.toNat) (min (wide - o) (256 - sa.toNat % 256)) = false →
          u.mem = s.mem ∧ after n ∧ (u.sp q).fBytes off n = s.physRead (lf.pa sa.toNat) n
            ∧ (∀ f, (f < off ∨ off + n ≤ f) → (u.sp q).fByte f = (s.sp q).fByte f)
            ∧ (∀ f, f / 128 ≠ off / 128 → (u.sp q).full f = (s.sp q).full f)
            ∧ ((u.sp q).full off
                = ((s.sp q).full off || !laterTouch s sp t (fun i => t.dst i 0) row (o + n) (q, off / 128)))
            ∧ (r.pos + n = t.bytes → (u.sp q).full off = true))
        ∧ ((t.kind = 1 ∨ t.kind = 3) → entry → s.fDecode sp sa.toNat = .srf q off → (s.sp q).full off = true →
            translate s (.sp sp) p.id.ctx da.toNat .write (.copy false) = .ok lf → lf.kind = 0 ∨ lf.kind = 3 →
          let m := min (wide - o) (128 - sa.toNat % 128)
          let n := min m (min (wide - o) (256 - da.toNat % 256))
          (n = min (wide - o) (256 - da.toNat % 256) ∨ (da.toNat + n) % 8 = 0) →
          after n ∧ u.physRead (lf.pa da.toNat) n = (s.sp q).fBytes off n ∧ SameMemBut s u (lf.pa da.toNat) n
            ∧ (∀ f, (u.sp q).fByte f = (s.sp q).fByte f) ∧ (∀ f, f / 128 ≠ off / 128 → (u.sp q).full f = (s.sp q).full f)
            ∧ (u.sp q).full off = !(t.consume && !laterTouch s sp t (fun i => t.src param i x) row (o + m) (q, off / 128))
            ∧ (t.consume = true → r.pos + m = t.bytes → (u.sp q).full off = false))
        ∧ (t.kind = 6 → s.fDecode sp sa.toNat = .srf q off → (s.sp q).full off = true →
          let m := min (wide - o) (128 - sa.toNat % 128)
          (m = wide - o ∨ (da.toNat + m) % 8 = 0) →
          u.mem = s.mem ∧ ∃ r', ran = some r' ∧ r'.pos = r.pos + m ∧ r'.stop = none ∧ r'.net = r.net ++ (s.sp q).fBytes off m)
        ∧ (∀ a, waits a → s.fDecode sp a = .srf q off → (s.sp q).full off = false →
          u.mem = s.mem ∧ (u.sp q).fe = (s.sp q).fe
            ∧ ran = some { r with pend := .line s.time ((s.die (dieOf sp)).fetime.toNat % 2 ^ 24 * 1000) }))
      ∧ (c.run = some r → r.t = some t → t.kind = 6 → r.stop = none → t.bytes ≤ r.pos → r.pkts = [] → r.adds = [] → r.net ≠ [] →
        (r.msg = .gathering → u.mem = s.mem ∧ ran = some { r with msg := .sent }
          ∧ u.dev = (s.ethSend (.write (t.qp.setWidth 14) (t.dst 0 0) r.net)).dev)
        ∧ (∀ ok, r.msg = .sent → ((netAck s sp ch ok).sp sp).str.chans[ch].run
            = some { r with msg := .acked, stop := if ok then none else some cCopyNetError }))
      ∧ (∀ y : Nat × Nat × List Byte, c.run = some r → r.t = some t → t.bytes ≤ r.pos → r.adds = [y] → y.2.2.length = 4 →
          let v := (fp32.add .rne (leNat (s.physRead y.2.1 4)) (leNat y.2.2)).1
          u.physRead y.2.1 4 = leBytes 4 v ∧ SameMemBut s u y.2.1 4))

/-- R36, R58, R85, R95, R106, R308: a kernel starts with its arguments in a0 to a7, its cursors at the bound bases with the
cluster's share added, and flags, hold latches, tile status and operand slots cleared; at its end the flags of its
clusters merge into AFLAGS and its tag completes. A DONE launch writes CVAL to CSIG. -/
def Obligations.KernelsAndLaunchesEnd : Prop :=
  ∀ (sp : SpId) (o : StreamOp) (l : List StreamOp) (entry : BitVec 12) (chk : Bool) (b : KBlock) (k : KRun) (li : Nat)
      (x : Launch) (lf : Leaf) (s : State),
    let p := s.sp sp
    (p.str.kq = o :: l → o.body = .krun entry chk b → krunReady p = true →
      ∃ t, exec (.kernelStart sp) s = .next t ∧ t.mem = s.mem ∧ (t.sp sp).str.kq = l
        ∧ (let e := (t.sp sp).ke
          e.nit = 0 ∧ e.nps = 0 ∧ e.chk = chk ∧ e.lent = false ∧ e.rstack = [] ∧ e.bind = b.bind
          ∧ e.run.map KRun.kpc = some entry
          ∧ ∀ c : ClId,
            (∀ i : Fin 8, e.cl[c].a[i.castLE (by decide : 8 ≤ 32)] = b.args[i])
            ∧ (∀ i : Fin 8, b.bind[i].valid = true →
                (e.cl[c].q[i]) = BitVec.ofNat 23 (b.bind[i].base.toNat + c.val * 4096))
            ∧ e.cl[c].kflags = 0 ∧ e.cl[c].tsr = Vector.replicate 6 0 ∧ e.cl[c].v = p.ke.cl[c].v
            ∧ e.cl[c].opmSt = Vector.replicate 32 .free ∧ e.cl[c].hold = Vector.replicate 10 0))
    ∧ (p.ke.run = some k → k.phase = .ending → k.nits = none → p.ke.infl = [] →
        ∃ t, exec (.kernelEnd sp) s = .next t ∧ t.mem = s.mem ∧ (t.sp sp).ke.run = none
          ∧ (t.sp sp).r.aflags = p.r.aflags ||| (orFlags (p.ke.cl.toList.map KCluster.kflags)).setWidth 7
          ∧ (∀ i, k.op.tag = some i → (t.sp sp).str.tags[i] = ⟨false, none⟩)
          ∧ (t.ctx p.id.ctx).progress = s.time)
    ∧ (completionDue s li = some x → translate s .none x.ctx x.r.csig.toNat .write .scp = .ok lf → lf.kind ≠ 1 →
        let pa := lf.pa x.r.csig.toNat
        ∃ t, exec (.completionWrite li) s = .next t ∧ (t.launch? li).map Launch.gone = some true
          ∧ t.physRead pa 8 = leBytes 8 x.r.cval.toNat ∧ SameMemBut s t pa 8)

/-- R183, R187 to R191, R194, R196: the oldest operation of a Dealer starts when the Dealer is free and its context is not
being pre-empted; Count ends when the choices and the map have been read; a choice whose slot is at or past the expert's
capacity is dropped with reason 1, a row one of whose packets was refused with what that packet met, and a row in flight
to an expert that was found bad with what the expert met; INV takes each choice's slot, or all ones; the completion
block ends the operation. R196: with one choice a token, undeal writes each FP32 element of a token's row as the gate
times the slot's element, rounded, or as 0 for a dropped choice; past the last token it goes on to the completion block.
The model's choices: addresses mod 2^56, and a slot that is compared with CAP unwrapped (log 123); the choices are read
before the map, and the first read that fails ends the operation (log 67). -/
def Obligations.DealerSteps : Prop :=
  ∀ (d : DieId) (o : DealOp) (l : List DealOp) (r : DealRun) (c : DealChoice) (e : Expert) (pos : Nat) (base : W64)
      (q : Cause) (rest : List Nat)
      (ch em iv b : List Byte) (t1 t2 u : State) (s : State),
    let x := (s.die d).dealer
    let is (t : State) (f : DealRun) : Prop := (t.die d).dealer.run = some f
    (x.run = none → x.queue = o :: l → (s.ctx o.ctx).preempt = none → o.cancelled = false →
      (o.undeal = false →
        let s1 := dealBegin s d o
        (dealRead s1 d o o.d.choice.toNat (4 * (o.d.t.toNat * o.d.k.toNat)) = .data ch t1 →
          dealRead t1 d o o.d.emap.toNat (32 * o.d.e.toNat) = .data em t2 →
          exec (.dealCount d) s = .next (countDone t2 d o ch em))
        ∧ (∀ q, dealRead s1 d o o.d.choice.toNat (4 * (o.d.t.toNat * o.d.k.toNat)) = .fail q →
            ∃ t, exec (.dealCount d) s = .next t
              ∧ is t { DealRun.init o .block with cause := q, failed := true }))
      ∧ (o.undeal = true →
          exec (.undealCombine d) s = .next (gatherStep (dealBegin s d o) d (DealRun.init o .gather))))
    ∧ (x.run = some r → r.phase = .gather → r.op.d.k = 1 → r.op.d.ufmt = false →
      let n := r.next
      let y := r.op.d
      let row (f : Nat → Nat) : List Byte := (List.range (y.rowb.toNat / 4)).flatMap fun i => leBytes 4 (f i)
      let writes (w : State) (f : Nat → Nat) : Prop :=
        dealWrite w d r.op (y.out.toNat + n * y.ostr.toNat) (row f) = .data b u →
          ∃ t, exec (.undealCombine d) s = .next t ∧ t.mem = u.mem ∧ is t { r with next := n + 1 }
      (y.t.toNat ≤ n → ∃ t, exec (.undealCombine d) s = .next t ∧ t.mem = s.mem ∧ is t { r with phase := .block })
      ∧ (n < y.t.toNat → dealRead s d r.op (y.inv.toNat + 4 * n) 4 = .data iv t1 →
          dealRead t1 d r.op (y.choice.toNat + 4 * n) 4 = .data ch t2 →
        (field iv 0 4 = 0xFFFF_FFFF → writes t2 fun _ => 0)
        ∧ ∀ (t3 t4 : State) (bytes : List Byte),
          let k := field ch 0 2
          let a := (parseEMap em).base.toNat + field iv 0 4 * (parseEMap em).rstr.toNat
          field iv 0 4 ≠ 0xFFFF_FFFF → k < y.e.toNat → k < 2 ^ 15 →
          dealRead t2 d r.op (y.emap.toNat + 32 * k) 32 = .data em t3 → (parseEMap em).usable y.rowb.toNat = true →
          readSlot d r.op (parseEMap em) (pieces 256 a y.rowb.toNat (y.rowb.toNat + 1)) t3 [] = .data bytes t4 →
          writes t4 fun i =>
            (fp32.add .rne 0 (fp32.mul .rne (fp32.ofNum .rne (bf16.decode (field ch 2 2))).1 (field bytes (4 * i) 4)).1).1))
    ∧ (x.run = some r →
      (r.phase = .scatter → r.waitRes = 0 → r.failed = false → r.inv = [] → r.choices[r.next]? = some c →
          c.out = .counted pos → r.experts[c.expert.toNat]? = some e →
        (e.bad = none → e.base = some base → e.ent.cap.toNat ≤ base.toNat + pos →
          ∃ t, exec (.dealScatter d) s = .next t ∧ is t { r with
            next := r.next + 1, choices := r.choices.set r.next { c with out := .dropped 1 0 }, inv := [r.next] })
        ∧ (∀ n k, e.bad = some (n, k) →
          ∃ t, exec (.dealScatter d) s = .next t ∧ is t { r with
            next := r.next + 1, choices := r.choices.set r.next { c with out := .dropped n k }, inv := [r.next] })
        ∧ (∀ (bytes : List Byte) (tag : BitVec 12) (w : State), let slot := base.toNat + pos
          let at_ := e.ent.base.toNat + slot * e.ent.rstr.toNat
          e.bad = none → e.base = some base → slot < e.ent.cap.toNat → r.op.d.rowb ≠ 0 →
          at_ % 256 + r.op.d.rowb.toNat ≤ 256 →
          dealRead s d r.op (r.op.d.rows.toNat + r.next / r.op.d.k.toNat * r.op.d.sstr.toNat) r.op.d.rowb.toNat = .data bytes t1 →
          sendReq t1 (.scatter d r.next) r.op.ctx (ssidDealer d) tPWR 0 e.ent.acc e.ent.key (at_ % 2 ^ 56) r.op.d.rowb.toNat
            r.op.slack false (bytes.take r.op.d.rowb.toNat) = .ok tag w →
          (w.die d).dealer.run = some r →
          ∃ t, exec (.dealScatter d) s = .next t ∧ t.mem = w.mem ∧ t.dev = w.dev
            ∧ is t { r with next := r.next + 1, choices := r.choices.set r.next { c with out := .sent slot 1 none } }))
      ∧ (∀ (k slot : Nat) (y : Txn) (z : DealChoice) (g : Expert) (own : Option (BitVec 4 × Cause)), y.who = .scatter d k →
          r.choices[k]? = some z → z.out = .sent slot 1 own → r.experts[z.expert.toNat]? = some g →
          let lands (a : Reply) (out : DealOut) : Prop := ∃ f, is (answerTo s y a) f
            ∧ f.choices = r.choices.set k { z with out := out } ∧ f.inv = r.inv ++ [k]
          (∀ a : List Byte, own = none → g.bad = none → is (answerTo s y (.data a)) { r with
              choices := r.choices.set k { z with out := .placed slot }, inv := r.inv ++ [k]
              experts := r.experts.set z.expert.toNat { g with placed := g.placed + 1 } })
          ∧ (∀ (a : List Byte) b, own.or g.bad = some b → lands (.data a) (.dropped b.1 b.2))
          ∧ (own = none → lands (.err q) (.dropped (if q = cKeyStale then 2 else 3) q))
          ∧ (∀ b, own = some b → lands (.err q) (.dropped b.1 b.2)))
      ∧ (∀ (k : Nat) (z : DealChoice), r.phase = .scatter → r.waitRes = 0 → r.failed = false → r.inv = k :: rest →
          r.choices[k]? = some z →
          dealWrite s d r.op (r.op.d.inv.toNat + 4 * k)
            (leBytes 4 (match z.out with
              | .placed slot => slot
              | _ => 0xFFFF_FFFF)) = .data b u →
          (u.die d).dealer.run = some r →
          ∃ t, exec (.dealScatter d) s = .next t ∧ t.mem = u.mem ∧ is t { r with inv := rest })
      ∧ (r.phase = .block → r.pubs = 0 → r.status < 2 →
          dealWrite s d r.op (r.op.d.dsig.toNat + 8) (leBytes 8 r.statusWord) = .data b t1 →
          dealWrite t1 d r.op r.op.d.dsig.toNat (leBytes 8 r.op.d.seq.toNat) = .data b u →
          ∃ t, exec (.dealPublish d) s = .next t ∧ t.mem = u.mem ∧ (t.die d).dealer.run = none
            ∧ (t.ctx r.op.ctx).progress = s.time))

/-- R11, R14, R238, R239, R244 to R246, R249: a correctable error is counted in the unit that holds the word and changes
nothing else that a program can see; an uncorrectable one poisons its 64 bytes of HBM4, fails the task whose SRF holds
it or retires the SP; one in a core's IMEM fences the core; a bad queue-table copy is restored from the other. The
model's choices: which core takes over (log 75), when an error is met and how a word is healed (log 88), the source of
an L2 TLB's, a queue table's and a kick table's errors (log 128). -/
def Obligations.EccErrors : Prop :=
  ∀ (l : ErrLoc) (pa : Nat) (sp : SpId) (c : CoreId) (x : CtxId) (qid : BitVec 12) (q : UserQueue) (s : State),
    let count (w : State) (k : BitVec 4 × BitVec 16) : Nat :=
      ((w.dev.ras.find? fun x => x.1 = k.1 ∧ x.2.1 = k.2).map fun x => x.2.2).getD 0
    let unit : BitVec 4 × BitVec 16 :=
      match l with
      | .hbm pa => (1, BitVec.ofNat 16 (controllerOf s pa))
      | .spData i => (0, BitVec.ofNat 16 (i.val * 256))
      | .spControl i => (0, BitVec.ofNat 16 (i.val * 256))
      | .eqxImem i => (0, ssidCore i)
      | .l2 i => (4, BitVec.ofNat 16 i.val)
      | .queueTable _ _ _ => (4, 0)
      | .kickTable _ _ => (4, 0)
    (∃ t, exec (.correctableError l) s = .next t ∧ t.mem = s.mem ∧ t.gangs = s.gangs
      ∧ count t unit = count s unit + 1 ∧ (∀ k, k ≠ unit → count t k = count s k)
      ∧ (∀ i, t.sp i = { s.sp i with corr := (t.sp i).corr })
      ∧ (l = .spData sp ∨ l = .spControl sp →
          (t.sp sp).corr = s.time :: (s.sp sp).corr.filter fun n => s.time < n + 86400000000000)
      ∧ t.cores = s.cores ∧ t.dev = { s.dev with ras := t.dev.ras })
    ∧ (∀ pa : Nat, let n := pa / 256
        pa < interTop s.dev.memsplit → controllerOf s pa = n % 4 * 96 + n / 4 % 3 * 32 + n / 12 % 32
          ∧ (hbmPlace s pa).caddr = n / 384 * 256 + pa % 256)
    ∧ (∃ t, exec (.uncorrectableError (.hbm pa)) s = .next t ∧ t.mem = s.mem
        ∧ (pa < hbmTop → pa / 64 ∈ t.dev.poison) ∧ ∀ w, w ≠ pa / 64 → (w ∈ t.dev.poison ↔ w ∈ s.dev.poison))
    ∧ (exec (.uncorrectableError (.spData sp)) s
        = .next (if (s.sp sp).run = .idle then s else failStrand s sp cSramUncorrectable))
    ∧ (∃ t, exec (.uncorrectableError (.spControl sp)) s = .next t ∧ (t.sp sp).retired = true)
    ∧ ((s.sp sp).retired = false → 1000 < ((s.sp sp).corr.filter fun n => s.time < n + 86400000000000).length →
        ∃ t, exec (.spRetired sp) s = .next t ∧ (t.sp sp).retired = true)
    ∧ (1000 ≥ ((s.sp sp).corr.filter fun n => s.time < n + 86400000000000).length →
        exec (.spRetired sp) s = .refused (.notEnabled "SP_RETIRED"))
    ∧ ((s.eqx c).status ≠ .fenced → ∃ t, exec (.eqxImemEcc c) s = .next t ∧ (t.eqx c).status = .fenced
        ∧ ∀ i, (s.eqx i).status = .fenced → (t.eqx i).status = .fenced)
    ∧ ((s.dev.scrubs + 1) * 86400000000000 ≤ s.time →
        exec .scrub s = .next (s.modDev fun d => { d with scrubs := s.dev.scrubs + 1 }))
    ∧ ((s.ctx x).queues = [q] → q.qid = qid →
        (q.aBad = true → q.bBad = false → ∃ t, exec (.queueTableRestored x qid false) s = .next t
            ∧ (t.ctx x).queues = [{ q with a := q.b, aBad := false }])
        ∧ (q.bBad = true → q.aBad = false → ∃ t, exec (.queueTableRestored x qid true) s = .next t
            ∧ (t.ctx x).queues = [{ q with b := q.a, bBad := false }]))

/-- R13, R18, R159, R166, R252, R254, R255: a station loses lanes, and when it is down, what waits at it and its open
transactions; a temperature above 105.0 °C marks the die hot until one below 95.0 °C, and above 115.0 °C the module has
no power; an SP of a hot die is governed at half its PWRLIM, at least 64; reset leaves every SP as at power-on and keeps
the accelerator ID, loads the active cores from slot A, else from slot B, and with no slot that passes its checks serves
only the boot report. The model's choices: where a core begins (log 7), the accelerator ID over a reset (log 35), that a
station stays down (log 52), the unit of a temperature (log 78). -/
def Obligations.LinksTemperatureReset : Prop :=
  ∀ (st : StId) (n : BitVec 3) (d : DieId) (temp : Nat) (s : State),
    (n.toNat < s.dev.lanes[st].toNat → n = 2 ∨ n = 1 ∨ n = 0 →
      ∃ t, exec (.linkDegraded st n) s = .next t ∧ t.dev.lanes = s.dev.lanes.set st n
        ∧ (n = 0 → (t.dev.arb[st]).wait = []
            ∧ ∀ x ∈ t.dev.txns, x.st = st → x.h.dst = s.dev.accId))
    ∧ (s.dev.lanes[st].toNat ≤ n.toNat → exec (.linkDegraded st n) s = .refused (.notEnabled "LINK_DEGRADED"))
    ∧ (1050 < temp → (s.die d).hot = false → ∃ t, exec (.thermalEvent d temp) s = .next t ∧ (t.die d).hot = true)
    ∧ (temp < 950 → (s.die d).hot = true → ∃ t, exec (.thermalRecovery d temp) s = .next t ∧ (t.die d).hot = false
        ∧ SameMem s t)
    ∧ (1150 < temp → ∃ t, exec (.thermalShutdown d temp) s = .next t ∧ t.dev.powered = false)
    ∧ (temp ≤ 1050 ∨ (s.die d).hot = true → exec (.thermalEvent d temp) s = .refused (.notEnabled "THERMAL_EVENT"))
    ∧ (950 ≤ temp ∨ (s.die d).hot = false → exec (.thermalRecovery d temp) s = .refused (.notEnabled "THERMAL_RECOVERY"))
    ∧ (temp ≤ 1150 → exec (.thermalShutdown d temp) s = .refused (.notEnabled "THERMAL_SHUTDOWN"))
    ∧ (∀ p : SpId, dieOf p = d → governorLimit s p
        = if (s.die d).hot then max 64 ((s.sp p).pwrlim.toNat / 2) else (s.sp p).pwrlim.toNat)
    ∧ (∃ t, exec .reset s = .next t ∧ t.sps = State.reset.sps ∧ t.gangs = [] ∧ t.launches = [] ∧ t.dev.accId = s.dev.accId
        ∧ (slotOk s.dev.boot s.dev.boot.slotA = false → slotOk s.dev.boot s.dev.boot.slotB = false →
            t.dev.boot.status = 2 ∧ t.cores = State.reset.cores)
        ∧ (t.dev.boot.status = 0 → t.dev.memsplit.getLsbD 7 = true
            ∧ ∃ f, (f = s.dev.boot.slotA ∨ (f = s.dev.boot.slotB ∧ slotOk s.dev.boot s.dev.boot.slotA = false))
              ∧ slotOk s.dev.boot f = true ∧ ∀ c : CoreId, (State.reset.eqx c).status = .active →
                (t.eqx c).imem = memWrite [] 0 (f.image.take 0x8_0000) ∧ (t.eqx c).pc = 0))
end

