-- ==== Sys2Proof/Laws/Memory.lean ====
section
/-! SUPPORT. Sparse maps and memory: what a read gives after a write, and that every operation on memory keeps it in its
canonical form. -/

namespace Sys2Proof.Machine

open Sys2Proof

variable {α : Type} [DecidableEq α] {d : α}

/-! ## Sparse maps -/

theorem mapWf_cons {lo k : Nat} {x : α} {l : List (Nat × α)} :
    mapWf d lo ((k, x) :: l) = true ↔ lo ≤ k ∧ x ≠ d ∧ mapWf d (k + 1) l = true := by
  simp [mapWf, and_assoc]

theorem mapWf_mono {lo lo' : Nat} {l : List (Nat × α)} (h : lo' ≤ lo) (w : mapWf d lo l = true) : mapWf d lo' l = true := by
  cases l with
  | nil => rfl
  | cons c l =>
    obtain ⟨k, x⟩ := c
    rw [mapWf_cons] at w ⊢
    exact ⟨Nat.le_trans h w.1, w.2⟩

/-- Below the least key every address reads as the default. -/
theorem getAt_below {lo a : Nat} {l : List (Nat × α)} (w : mapWf d lo l = true) (h : a < lo) : getAt d l a = d := by
  induction l generalizing lo with
  | nil => rfl
  | cons c l ih =>
    obtain ⟨k, x⟩ := c
    rw [mapWf_cons] at w
    rw [getAt, if_neg (by omega)]
    exact ih w.2.2 (by omega)

/-- Removing a key below every one of the map leaves the map. -/
theorem setAt_below {lo a : Nat} {x : α} {l : List (Nat × α)} (h : x = d) (w : mapWf d lo l = true) (ha : a < lo) :
    setAt d l a x = l := by
  induction l generalizing lo with
  | nil => rw [setAt, if_pos h]
  | cons c l ih =>
    obtain ⟨k, y⟩ := c
    rw [mapWf_cons] at w
    rw [setAt, if_neg (by omega), if_neg (fun g => g.2 h), ih w.2.2 (by omega)]

/-- A write keeps a map canonical. -/
theorem mapWf_setAt {lo a : Nat} {x : α} {l : List (Nat × α)} (w : mapWf d lo l = true) (h : lo ≤ a) :
    mapWf d lo (setAt d l a x) = true := by
  induction l generalizing lo with
  | nil =>
    rw [setAt]; split
    · rfl
    · rw [mapWf_cons]; exact ⟨h, by assumption, rfl⟩
  | cons c l ih =>
    obtain ⟨k, y⟩ := c
    rw [mapWf_cons] at w
    rw [setAt]; split
    · split
      · exact ih (mapWf_mono (by omega) w.2.2) h
      · rw [mapWf_cons]; exact ⟨h, by assumption, mapWf_mono (by omega) w.2.2⟩
    · rename_i hn
      split
      · rename_i hx; rw [mapWf_cons, mapWf_cons]; exact ⟨h, hx.2, by omega, w.2⟩
      · by_cases hk : k < a
        · rw [mapWf_cons]; exact ⟨w.1, w.2.1, ih w.2.2 hk⟩
        · rename_i hx
          have hx : x = d := Decidable.byContradiction fun g => hx ⟨by omega, g⟩
          have e : setAt d l a x = l := setAt_below hx w.2.2 (by omega)
          rw [e, mapWf_cons]; exact w

/-- What has just been written is read. -/
theorem getAt_setAt_same {a : Nat} {x : α} {l : List (Nat × α)} : getAt d (setAt d l a x) a = x := by
  induction l with
  | nil =>
    rw [setAt]; split
    · rename_i h; rw [h]; rfl
    · simp [getAt]
  | cons c l ih =>
    obtain ⟨k, y⟩ := c
    rw [setAt]; split
    · split
      · exact ih
      · simp [getAt]
    · rename_i h
      split
      · simp [getAt]
      · rw [getAt, if_neg (Ne.symm h)]; exact ih

/-- Every other key reads as before. -/
theorem getAt_setAt_ne {a b : Nat} {x : α} {l : List (Nat × α)} (h : b ≠ a) :
    getAt d (setAt d l a x) b = getAt d l b := by
  induction l with
  | nil =>
    rw [setAt]; split
    · rfl
    · simp [getAt, Ne.symm h]
  | cons c l ih =>
    obtain ⟨k, y⟩ := c
    rw [setAt]; split
    · rename_i hk
      have e : getAt d ((k, y) :: l) b = getAt d l b := by rw [getAt, if_neg (by omega)]
      split
      · rw [ih, e]
      · rw [getAt, if_neg (Ne.symm h), e]
    · split
      · rw [getAt, if_neg (Ne.symm h)]
      · rw [getAt, getAt, ih]

/-- Dropping entries keeps a map canonical. -/
theorem mapWf_filter {lo : Nat} {l : List (Nat × α)} (f : Nat × α → Bool) (w : mapWf d lo l = true) :
    mapWf d lo (l.filter f) = true := by
  induction l generalizing lo with
  | nil => rfl
  | cons c l ih =>
    obtain ⟨k, x⟩ := c
    rw [mapWf_cons] at w
    rw [List.filter_cons]; split
    · rw [mapWf_cons]; exact ⟨w.1, w.2.1, ih w.2.2⟩
    · exact mapWf_mono (by omega) (ih w.2.2)

/-! ## Memory -/

theorem Memory.wf_memSet {m : List Host.Cell} {a : Nat} {b : Byte} (w : Memory.wf m = true) :
    Memory.wf (memSet m a b) = true := mapWf_setAt w (Nat.zero_le _)

theorem Memory.wf_memWrite {m : List Host.Cell} {a : Nat} {b : List Byte} (w : Memory.wf m = true) :
    Memory.wf (memWrite m a b) = true := by
  induction b generalizing m a with
  | nil => exact w
  | cons x b ih => exact ih (Memory.wf_memSet w)

theorem State.physWrite_wf {s : State} {a : Nat} {b : List Byte} (w : Memory.wf s.mem = true) :
    Memory.wf (s.physWrite a b).mem = true := Memory.wf_memWrite w

theorem zeroMem_wf {s : State} {a n : Nat} (w : Memory.wf s.mem = true) : Memory.wf (zeroMem s a n).mem = true :=
  mapWf_filter _ w

theorem Memory.wf_reset : Memory.wf State.reset.mem = true := rfl

theorem memByte_memSet_same {m : List Host.Cell} {a : Nat} {b : Byte} : memByte (memSet m a b) a = b := getAt_setAt_same

theorem memByte_memSet_ne {m : List Host.Cell} {a x : Nat} {b : Byte} (h : x ≠ a) :
    memByte (memSet m a b) x = memByte m x := getAt_setAt_ne h

theorem memBytes_length (m : List Host.Cell) (a n : Nat) : (memBytes m a n).length = n := by
  induction n generalizing a with
  | zero => rfl
  | succ n ih => simp [memBytes, ih]

/-! ## Lists and bytes -/

theorem modList_length {β : Type} (f : β → β) (l : List β) (n : Nat) : (modList f l n).length = l.length := by
  induction l generalizing n with
  | nil => cases n <;> rfl
  | cons x l ih => cases n <;> simp [modList, ih]

theorem getElem?_modList_same {β : Type} (f : β → β) (l : List β) (n : Nat) : (modList f l n)[n]? = l[n]?.map f := by
  induction l generalizing n with
  | nil => cases n <;> rfl
  | cons x l ih => cases n <;> simp [modList, ih]

theorem getElem?_modList_ne {β : Type} (f : β → β) (l : List β) (n m : Nat) (h : m ≠ n) :
    (modList f l n)[m]? = l[m]? := by
  induction l generalizing n m with
  | nil => cases n <;> rfl
  | cons x l ih =>
    cases n with
    | zero => cases m with
      | zero => exact absurd rfl h
      | succ m => simp [modList]
    | succ n => cases m with
      | zero => simp [modList]
      | succ m => simpa [modList] using ih n m (by omega)

theorem leBytes_length (n v : Nat) : (leBytes n v).length = n := by
  induction n generalizing v with
  | zero => rfl
  | succ n ih => simp [leBytes, ih]

/-- Bytes and number of one width agree. -/
theorem leNat_leBytes (n v : Nat) : leNat (leBytes n v) = v % 256 ^ n := by
  induction n generalizing v with
  | zero => simp [leBytes, leNat, Nat.mod_one]
  | succ n ih =>
    have e : (256 : Nat) ^ (n + 1) = 256 * 256 ^ n := by rw [Nat.pow_succ]; omega
    rw [leBytes, leNat, ih, BitVec.toNat_ofNat, e, Nat.mod_mul]

end Sys2Proof.Machine
end

