-- ==== Sys2Proof/Laws/Device.lean ====
section
/-! SUPPORT. What the device's own writes do: nothing but memory, the poison and the reservations of what they cover, the event
ring's counters, the page requests and the packets on the chip changes, and memory stays canonical; and what the answers of
packets on the chip do: that, and SLKCNT of contexts. -/

namespace Sys2Proof.Machine

open Sys2Proof

/-- Only memory, poison, reservations, the event ring's counters, page requests and the packets on the chip differ, and canonical
memory stays canonical. -/
structure DevWrote (s t : State) : Prop where
  rest : t = { s with
           mem := t.mem, resv := t.resv
           dev := { s.dev with
             poison := t.dev.poison, ev := t.dev.ev, pageAsks := t.dev.pageAsks, seqs := t.dev.seqs, chip := t.dev.chip } }
  wf   : Memory.wf s.mem = true → Memory.wf t.mem = true

theorem DevWrote.refl (s : State) : DevWrote s s := ⟨rfl, id⟩

theorem DevWrote.trans {s t u : State} (h : DevWrote s t) (k : DevWrote t u) : DevWrote s u := by
  refine ⟨?_, k.wf ∘ h.wf⟩
  rw [k.rest, h.rest]

theorem DevWrote.sps {s t : State} (h : DevWrote s t) : t.sps = s.sps := by rw [h.rest]
theorem DevWrote.dies {s t : State} (h : DevWrote s t) : t.dies = s.dies := by rw [h.rest]
theorem DevWrote.ctxs {s t : State} (h : DevWrote s t) : t.ctxs = s.ctxs := by rw [h.rest]
theorem DevWrote.cores {s t : State} (h : DevWrote s t) : t.cores = s.cores := by rw [h.rest]
theorem DevWrote.gangs {s t : State} (h : DevWrote s t) : t.gangs = s.gangs := by rw [h.rest]
theorem DevWrote.launches {s t : State} (h : DevWrote s t) : t.launches = s.launches := by rw [h.rest]
theorem DevWrote.slots {s t : State} (h : DevWrote s t) : t.slots = s.slots := by rw [h.rest]
theorem DevWrote.time {s t : State} (h : DevWrote s t) : t.time = s.time := by rw [h.rest]
theorem DevWrote.txns {s t : State} (h : DevWrote s t) : t.dev.txns = s.dev.txns := by rw [h.rest]

/-- What packets that stay on the chip do. -/
theorem chip_devWrote (s : State) (ctx : CtxId) (ssid : BitVec 16) (slack : BitVec 12) (n : Nat) :
    DevWrote s (s.chip ctx ssid slack n) := by
  unfold State.chip; split
  · exact .refl s
  · exact ⟨rfl, id⟩

theorem physWrite_devWrote (s : State) (a : Nat) (d : List Byte) : DevWrote s (s.physWrite a d) :=
  ⟨rfl, State.physWrite_wf⟩

theorem physWriteAll_devWrote (s : State) (ps : List (Nat × Nat)) (d : List Byte) :
    DevWrote s (physWriteAll s ps d) := by
  induction ps generalizing s d with
  | nil => exact .refl s
  | cons p ps ih => exact (physWrite_devWrote s _ _).trans (ih _ _)

theorem gWrite_devWrote {s t : State} {tu : TUnit} {ctx : CtxId} {ag : Agent} {va : Nat} {d : List Byte}
    (h : gWrite s tu ctx ag va d = .ok t) : DevWrote s t := by
  unfold gWrite at h
  split at h
  · cases h
  · cases h; exact physWriteAll_devWrote _ _ _

theorem devWrite_devWrote {s t : State} {ctx : CtxId} {va : Nat} {d : List Byte} (h : devWrite s ctx va d = .ok t) :
    DevWrote s t := gWrite_devWrote h

theorem devPut_devWrote (s : State) (ctx : CtxId) (va : W64) (d : List Byte) : DevWrote s (devPut s ctx va d) := by
  unfold devPut; split
  · exact devWrite_devWrote (by assumption)
  · exact .refl s

theorem askPage_devWrote (s : State) (ctx : CtxId) (va : W64) : DevWrote s (askPage s ctx va) := by
  unfold askPage; split
  · exact .refl s
  · split
    · exact .refl s
    · exact ⟨rfl, id⟩

theorem noteDiscard_devWrote (s : State) : DevWrote s (noteDiscard s) := by
  unfold noteDiscard
  extract_lets s1
  have h : DevWrote s s1 := ⟨rfl, id⟩
  split
  · exact h.trans (gWrite_devWrote (by assumption))
  · exact h

theorem ringPut_devWrote {s t : State} {e : EventRec} (h : ringPut s e = .done t) : DevWrote s t := by
  unfold ringPut at h
  extract_lets ring failed at h
  have hf : ∀ x, failed x ≠ .done t := fun x => by simp only [failed]; split <;> simp
  split at h
  · exact absurd h (hf _)
  · split at h
    · cases h
    · split at h
      · exact absurd h (hf _)
      · rename_i s2 h2; cases h; exact (gWrite_devWrote h2).trans ⟨rfl, id⟩

/-- What an event record does that ends no launch. -/
theorem putEvent_devWrote (s : State) (e : EventRec) (he : e.ends = none) : DevWrote s (putEvent s e) := by
  have ho : ∀ t, e.over t = t := fun t => by simp [EventRec.over, he]
  unfold putEvent
  extract_lets later
  have h : DevWrote s later := ⟨rfl, id⟩
  split
  · exact h
  · split
    · rw [ho]; exact ringPut_devWrote (by assumption)
    · exact h.trans (askPage_devWrote ..)
    · rw [ho]; exact noteDiscard_devWrote s

/-- What an event record does. -/
theorem emit_devWrote (s : State) (skind : BitVec 4) (snum : BitVec 16) (c : Cause) (typ : BitVec 4) (ctx : CtxId)
    (acc : BitVec 11) (info : W64) : DevWrote s (emit s skind snum c typ ctx acc info) := by
  unfold emit emitEnds
  extract_lets k seq s1
  have h : DevWrote s s1 := ⟨rfl, id⟩
  exact h.trans (putEvent_devWrote s1 _ rfl)

/-- What the records of a gang's seats do. -/
theorem writeRecord_devWrote (s : State) (gi n : Nat) : DevWrote s (writeRecord s gi n) := by
  unfold writeRecord; split
  · exact .refl s
  · split
    · exact (chip_devWrote ..).trans (devPut_devWrote ..)
    · exact .refl s

theorem writeRecords_devWrote (s : State) (gi n : Nat) : DevWrote s (writeRecords s gi n) := by
  induction n with
  | zero => exact .refl s
  | succ n ih => exact ih.trans (writeRecord_devWrote _ _ _)

/-- `DevWrote`, but for what the contexts hold. -/
def DevWroteCtxs (s t : State) : Prop := DevWrote { s with ctxs := t.ctxs } t

theorem DevWroteCtxs.trans {s t u : State} (h : DevWroteCtxs s t) (k : DevWroteCtxs t u) : DevWroteCtxs s u := by
  refine ⟨?_, k.wf ∘ h.wf⟩
  rw [k.rest, h.rest]

/-- What an answer that is overdue does (R181). -/
theorem overdueAnswer_devWrote (s : State) (ctx : CtxId) (ssid : BitVec 16) (src : BitVec 11) (seq : BitVec 48) :
    DevWroteCtxs s (overdueAnswer s ctx ssid src seq) := by
  unfold overdueAnswer
  extract_lets s1
  split
  · have h := emit_devWrote s1 0 ssid cSlackExhausted 4 ctx src (seq.setWidth 64)
    refine ⟨?_, h.wf⟩
    rw [h.rest]; rfl
  · exact ⟨rfl, id⟩

theorem answerChip_devWrote (tick k : Nat) (p : ChipPkt) (s : State) : DevWroteCtxs s (answerChip tick k p s) := by
  unfold answerChip
  split
  · split
    · exact overdueAnswer_devWrote ..
    · exact .refl s
  · exact .refl s

/-- What the answers to the packets on the chip do (R179, R181). -/
theorem settleChip_devWrote (s : State) : DevWroteCtxs s (settleChip s) := by
  unfold settleChip
  have h : DevWroteCtxs s (s.modDev fun d => { d with chip := [] }) := ⟨rfl, id⟩
  revert h
  generalize (s.modDev fun d => { d with chip := [] }) = t
  induction s.dev.chip.zipIdx generalizing t with
  | nil => exact id
  | cons x l ih => exact fun h => ih _ (h.trans (answerChip_devWrote ..))

end Sys2Proof.Machine
end

