-- ==== Sys2Proof/Laws/State.lean ====
section
/-! SUPPORT. One lemma for each field of State under each update of it, and what the parts read after their update. -/

namespace Sys2Proof.Machine

open Sys2Proof

/-! ### State.setSp -/

@[simp] theorem State.setSp_agenda (s : State) (i : SpId) (p : Sp) : (s.setSp i p).agenda = s.agenda := rfl
@[simp] theorem State.setSp_tick (s : State) (i : SpId) (p : Sp) : (s.setSp i p).tick = s.tick := rfl
@[simp] theorem State.setSp_cur (s : State) (i : SpId) (p : Sp) : (s.setSp i p).cur = s.cur := rfl
@[simp] theorem State.setSp_core (s : State) (i : SpId) (p : Sp) : (s.setSp i p).core = s.core := rfl
@[simp] theorem State.setSp_time (s : State) (i : SpId) (p : Sp) : (s.setSp i p).time = s.time := rfl
@[simp] theorem State.setSp_mem (s : State) (i : SpId) (p : Sp) : (s.setSp i p).mem = s.mem := rfl
@[simp] theorem State.setSp_sps (s : State) (i : SpId) (p : Sp) : (s.setSp i p).sps = s.sps.set i p := rfl
@[simp] theorem State.setSp_dies (s : State) (i : SpId) (p : Sp) : (s.setSp i p).dies = s.dies := rfl
@[simp] theorem State.setSp_cores (s : State) (i : SpId) (p : Sp) : (s.setSp i p).cores = s.cores := rfl
@[simp] theorem State.setSp_ctxs (s : State) (i : SpId) (p : Sp) : (s.setSp i p).ctxs = s.ctxs := rfl
@[simp] theorem State.setSp_gangs (s : State) (i : SpId) (p : Sp) : (s.setSp i p).gangs = s.gangs := rfl
@[simp] theorem State.setSp_launches (s : State) (i : SpId) (p : Sp) : (s.setSp i p).launches = s.launches := rfl
@[simp] theorem State.setSp_slots (s : State) (i : SpId) (p : Sp) : (s.setSp i p).slots = s.slots := rfl
@[simp] theorem State.setSp_slotSum (s : State) (i : SpId) (p : Sp) : (s.setSp i p).slotSum = s.slotSum := rfl
@[simp] theorem State.setSp_ctxSum (s : State) (i : SpId) (p : Sp) : (s.setSp i p).ctxSum = s.ctxSum := rfl
@[simp] theorem State.setSp_resv (s : State) (i : SpId) (p : Sp) : (s.setSp i p).resv = s.resv := rfl
@[simp] theorem State.setSp_dev (s : State) (i : SpId) (p : Sp) : (s.setSp i p).dev = s.dev := rfl

/-! ### State.modSp -/

@[simp] theorem State.modSp_agenda (s : State) (i : SpId) (f : Sp → Sp) : (s.modSp i f).agenda = s.agenda := rfl
@[simp] theorem State.modSp_tick (s : State) (i : SpId) (f : Sp → Sp) : (s.modSp i f).tick = s.tick := rfl
@[simp] theorem State.modSp_cur (s : State) (i : SpId) (f : Sp → Sp) : (s.modSp i f).cur = s.cur := rfl
@[simp] theorem State.modSp_core (s : State) (i : SpId) (f : Sp → Sp) : (s.modSp i f).core = s.core := rfl
@[simp] theorem State.modSp_time (s : State) (i : SpId) (f : Sp → Sp) : (s.modSp i f).time = s.time := rfl
@[simp] theorem State.modSp_mem (s : State) (i : SpId) (f : Sp → Sp) : (s.modSp i f).mem = s.mem := rfl
@[simp] theorem State.modSp_sps (s : State) (i : SpId) (f : Sp → Sp) :
    (s.modSp i f).sps = s.sps.set i (f (s.sp i)) := rfl
@[simp] theorem State.modSp_dies (s : State) (i : SpId) (f : Sp → Sp) : (s.modSp i f).dies = s.dies := rfl
@[simp] theorem State.modSp_cores (s : State) (i : SpId) (f : Sp → Sp) : (s.modSp i f).cores = s.cores := rfl
@[simp] theorem State.modSp_ctxs (s : State) (i : SpId) (f : Sp → Sp) : (s.modSp i f).ctxs = s.ctxs := rfl
@[simp] theorem State.modSp_gangs (s : State) (i : SpId) (f : Sp → Sp) : (s.modSp i f).gangs = s.gangs := rfl
@[simp] theorem State.modSp_launches (s : State) (i : SpId) (f : Sp → Sp) : (s.modSp i f).launches = s.launches := rfl
@[simp] theorem State.modSp_slots (s : State) (i : SpId) (f : Sp → Sp) : (s.modSp i f).slots = s.slots := rfl
@[simp] theorem State.modSp_slotSum (s : State) (i : SpId) (f : Sp → Sp) : (s.modSp i f).slotSum = s.slotSum := rfl
@[simp] theorem State.modSp_ctxSum (s : State) (i : SpId) (f : Sp → Sp) : (s.modSp i f).ctxSum = s.ctxSum := rfl
@[simp] theorem State.modSp_resv (s : State) (i : SpId) (f : Sp → Sp) : (s.modSp i f).resv = s.resv := rfl
@[simp] theorem State.modSp_dev (s : State) (i : SpId) (f : Sp → Sp) : (s.modSp i f).dev = s.dev := rfl

/-! ### State.modMe -/

@[simp] theorem State.modMe_agenda (s : State) (f : Sp → Sp) : (s.modMe f).agenda = s.agenda := rfl
@[simp] theorem State.modMe_tick (s : State) (f : Sp → Sp) : (s.modMe f).tick = s.tick := rfl
@[simp] theorem State.modMe_cur (s : State) (f : Sp → Sp) : (s.modMe f).cur = s.cur := rfl
@[simp] theorem State.modMe_core (s : State) (f : Sp → Sp) : (s.modMe f).core = s.core := rfl
@[simp] theorem State.modMe_time (s : State) (f : Sp → Sp) : (s.modMe f).time = s.time := rfl
@[simp] theorem State.modMe_mem (s : State) (f : Sp → Sp) : (s.modMe f).mem = s.mem := rfl
@[simp] theorem State.modMe_sps (s : State) (f : Sp → Sp) : (s.modMe f).sps = s.sps.set s.cur (f s.me) := rfl
@[simp] theorem State.modMe_dies (s : State) (f : Sp → Sp) : (s.modMe f).dies = s.dies := rfl
@[simp] theorem State.modMe_cores (s : State) (f : Sp → Sp) : (s.modMe f).cores = s.cores := rfl
@[simp] theorem State.modMe_ctxs (s : State) (f : Sp → Sp) : (s.modMe f).ctxs = s.ctxs := rfl
@[simp] theorem State.modMe_gangs (s : State) (f : Sp → Sp) : (s.modMe f).gangs = s.gangs := rfl
@[simp] theorem State.modMe_launches (s : State) (f : Sp → Sp) : (s.modMe f).launches = s.launches := rfl
@[simp] theorem State.modMe_slots (s : State) (f : Sp → Sp) : (s.modMe f).slots = s.slots := rfl
@[simp] theorem State.modMe_slotSum (s : State) (f : Sp → Sp) : (s.modMe f).slotSum = s.slotSum := rfl
@[simp] theorem State.modMe_ctxSum (s : State) (f : Sp → Sp) : (s.modMe f).ctxSum = s.ctxSum := rfl
@[simp] theorem State.modMe_resv (s : State) (f : Sp → Sp) : (s.modMe f).resv = s.resv := rfl
@[simp] theorem State.modMe_dev (s : State) (f : Sp → Sp) : (s.modMe f).dev = s.dev := rfl

/-! ### State.setDie -/

@[simp] theorem State.setDie_agenda (s : State) (i : DieId) (x : Die) : (s.setDie i x).agenda = s.agenda := rfl
@[simp] theorem State.setDie_tick (s : State) (i : DieId) (x : Die) : (s.setDie i x).tick = s.tick := rfl
@[simp] theorem State.setDie_cur (s : State) (i : DieId) (x : Die) : (s.setDie i x).cur = s.cur := rfl
@[simp] theorem State.setDie_core (s : State) (i : DieId) (x : Die) : (s.setDie i x).core = s.core := rfl
@[simp] theorem State.setDie_time (s : State) (i : DieId) (x : Die) : (s.setDie i x).time = s.time := rfl
@[simp] theorem State.setDie_mem (s : State) (i : DieId) (x : Die) : (s.setDie i x).mem = s.mem := rfl
@[simp] theorem State.setDie_sps (s : State) (i : DieId) (x : Die) : (s.setDie i x).sps = s.sps := rfl
@[simp] theorem State.setDie_dies (s : State) (i : DieId) (x : Die) : (s.setDie i x).dies = s.dies.set i x := rfl
@[simp] theorem State.setDie_cores (s : State) (i : DieId) (x : Die) : (s.setDie i x).cores = s.cores := rfl
@[simp] theorem State.setDie_ctxs (s : State) (i : DieId) (x : Die) : (s.setDie i x).ctxs = s.ctxs := rfl
@[simp] theorem State.setDie_gangs (s : State) (i : DieId) (x : Die) : (s.setDie i x).gangs = s.gangs := rfl
@[simp] theorem State.setDie_launches (s : State) (i : DieId) (x : Die) : (s.setDie i x).launches = s.launches := rfl
@[simp] theorem State.setDie_slots (s : State) (i : DieId) (x : Die) : (s.setDie i x).slots = s.slots := rfl
@[simp] theorem State.setDie_slotSum (s : State) (i : DieId) (x : Die) : (s.setDie i x).slotSum = s.slotSum := rfl
@[simp] theorem State.setDie_ctxSum (s : State) (i : DieId) (x : Die) : (s.setDie i x).ctxSum = s.ctxSum := rfl
@[simp] theorem State.setDie_resv (s : State) (i : DieId) (x : Die) : (s.setDie i x).resv = s.resv := rfl
@[simp] theorem State.setDie_dev (s : State) (i : DieId) (x : Die) : (s.setDie i x).dev = s.dev := rfl

/-! ### State.modDie -/

@[simp] theorem State.modDie_agenda (s : State) (i : DieId) (f : Die → Die) : (s.modDie i f).agenda = s.agenda := rfl
@[simp] theorem State.modDie_tick (s : State) (i : DieId) (f : Die → Die) : (s.modDie i f).tick = s.tick := rfl
@[simp] theorem State.modDie_cur (s : State) (i : DieId) (f : Die → Die) : (s.modDie i f).cur = s.cur := rfl
@[simp] theorem State.modDie_core (s : State) (i : DieId) (f : Die → Die) : (s.modDie i f).core = s.core := rfl
@[simp] theorem State.modDie_time (s : State) (i : DieId) (f : Die → Die) : (s.modDie i f).time = s.time := rfl
@[simp] theorem State.modDie_mem (s : State) (i : DieId) (f : Die → Die) : (s.modDie i f).mem = s.mem := rfl
@[simp] theorem State.modDie_sps (s : State) (i : DieId) (f : Die → Die) : (s.modDie i f).sps = s.sps := rfl
@[simp] theorem State.modDie_dies (s : State) (i : DieId) (f : Die → Die) :
    (s.modDie i f).dies = s.dies.set i (f (s.die i)) := rfl
@[simp] theorem State.modDie_cores (s : State) (i : DieId) (f : Die → Die) : (s.modDie i f).cores = s.cores := rfl
@[simp] theorem State.modDie_ctxs (s : State) (i : DieId) (f : Die → Die) : (s.modDie i f).ctxs = s.ctxs := rfl
@[simp] theorem State.modDie_gangs (s : State) (i : DieId) (f : Die → Die) : (s.modDie i f).gangs = s.gangs := rfl
@[simp] theorem State.modDie_launches (s : State) (i : DieId) (f : Die → Die) :
    (s.modDie i f).launches = s.launches := rfl
@[simp] theorem State.modDie_slots (s : State) (i : DieId) (f : Die → Die) : (s.modDie i f).slots = s.slots := rfl
@[simp] theorem State.modDie_slotSum (s : State) (i : DieId) (f : Die → Die) :
    (s.modDie i f).slotSum = s.slotSum := rfl
@[simp] theorem State.modDie_ctxSum (s : State) (i : DieId) (f : Die → Die) : (s.modDie i f).ctxSum = s.ctxSum := rfl
@[simp] theorem State.modDie_resv (s : State) (i : DieId) (f : Die → Die) : (s.modDie i f).resv = s.resv := rfl
@[simp] theorem State.modDie_dev (s : State) (i : DieId) (f : Die → Die) : (s.modDie i f).dev = s.dev := rfl

/-! ### State.setCtx -/

@[simp] theorem State.setCtx_agenda (s : State) (i : CtxId) (x : Ctx) : (s.setCtx i x).agenda = s.agenda := rfl
@[simp] theorem State.setCtx_tick (s : State) (i : CtxId) (x : Ctx) : (s.setCtx i x).tick = s.tick := rfl
@[simp] theorem State.setCtx_cur (s : State) (i : CtxId) (x : Ctx) : (s.setCtx i x).cur = s.cur := rfl
@[simp] theorem State.setCtx_core (s : State) (i : CtxId) (x : Ctx) : (s.setCtx i x).core = s.core := rfl
@[simp] theorem State.setCtx_time (s : State) (i : CtxId) (x : Ctx) : (s.setCtx i x).time = s.time := rfl
@[simp] theorem State.setCtx_mem (s : State) (i : CtxId) (x : Ctx) : (s.setCtx i x).mem = s.mem := rfl
@[simp] theorem State.setCtx_sps (s : State) (i : CtxId) (x : Ctx) : (s.setCtx i x).sps = s.sps := rfl
@[simp] theorem State.setCtx_dies (s : State) (i : CtxId) (x : Ctx) : (s.setCtx i x).dies = s.dies := rfl
@[simp] theorem State.setCtx_cores (s : State) (i : CtxId) (x : Ctx) : (s.setCtx i x).cores = s.cores := rfl
@[simp] theorem State.setCtx_ctxs (s : State) (i : CtxId) (x : Ctx) : (s.setCtx i x).ctxs = s.ctxs.set i x := rfl
@[simp] theorem State.setCtx_gangs (s : State) (i : CtxId) (x : Ctx) : (s.setCtx i x).gangs = s.gangs := rfl
@[simp] theorem State.setCtx_launches (s : State) (i : CtxId) (x : Ctx) : (s.setCtx i x).launches = s.launches := rfl
@[simp] theorem State.setCtx_slots (s : State) (i : CtxId) (x : Ctx) : (s.setCtx i x).slots = s.slots := rfl
@[simp] theorem State.setCtx_slotSum (s : State) (i : CtxId) (x : Ctx) : (s.setCtx i x).slotSum = s.slotSum := rfl
@[simp] theorem State.setCtx_ctxSum (s : State) (i : CtxId) (x : Ctx) : (s.setCtx i x).ctxSum = s.ctxSum := rfl
@[simp] theorem State.setCtx_resv (s : State) (i : CtxId) (x : Ctx) : (s.setCtx i x).resv = s.resv := rfl
@[simp] theorem State.setCtx_dev (s : State) (i : CtxId) (x : Ctx) : (s.setCtx i x).dev = s.dev := rfl

/-! ### State.modCtx -/

@[simp] theorem State.modCtx_agenda (s : State) (i : CtxId) (f : Ctx → Ctx) : (s.modCtx i f).agenda = s.agenda := rfl
@[simp] theorem State.modCtx_tick (s : State) (i : CtxId) (f : Ctx → Ctx) : (s.modCtx i f).tick = s.tick := rfl
@[simp] theorem State.modCtx_cur (s : State) (i : CtxId) (f : Ctx → Ctx) : (s.modCtx i f).cur = s.cur := rfl
@[simp] theorem State.modCtx_core (s : State) (i : CtxId) (f : Ctx → Ctx) : (s.modCtx i f).core = s.core := rfl
@[simp] theorem State.modCtx_time (s : State) (i : CtxId) (f : Ctx → Ctx) : (s.modCtx i f).time = s.time := rfl
@[simp] theorem State.modCtx_mem (s : State) (i : CtxId) (f : Ctx → Ctx) : (s.modCtx i f).mem = s.mem := rfl
@[simp] theorem State.modCtx_sps (s : State) (i : CtxId) (f : Ctx → Ctx) : (s.modCtx i f).sps = s.sps := rfl
@[simp] theorem State.modCtx_dies (s : State) (i : CtxId) (f : Ctx → Ctx) : (s.modCtx i f).dies = s.dies := rfl
@[simp] theorem State.modCtx_cores (s : State) (i : CtxId) (f : Ctx → Ctx) : (s.modCtx i f).cores = s.cores := rfl
@[simp] theorem State.modCtx_ctxs (s : State) (i : CtxId) (f : Ctx → Ctx) :
    (s.modCtx i f).ctxs = s.ctxs.set i (f (s.ctx i)) := rfl
@[simp] theorem State.modCtx_gangs (s : State) (i : CtxId) (f : Ctx → Ctx) : (s.modCtx i f).gangs = s.gangs := rfl
@[simp] theorem State.modCtx_launches (s : State) (i : CtxId) (f : Ctx → Ctx) :
    (s.modCtx i f).launches = s.launches := rfl
@[simp] theorem State.modCtx_slots (s : State) (i : CtxId) (f : Ctx → Ctx) : (s.modCtx i f).slots = s.slots := rfl
@[simp] theorem State.modCtx_slotSum (s : State) (i : CtxId) (f : Ctx → Ctx) :
    (s.modCtx i f).slotSum = s.slotSum := rfl
@[simp] theorem State.modCtx_ctxSum (s : State) (i : CtxId) (f : Ctx → Ctx) : (s.modCtx i f).ctxSum = s.ctxSum := rfl
@[simp] theorem State.modCtx_resv (s : State) (i : CtxId) (f : Ctx → Ctx) : (s.modCtx i f).resv = s.resv := rfl
@[simp] theorem State.modCtx_dev (s : State) (i : CtxId) (f : Ctx → Ctx) : (s.modCtx i f).dev = s.dev := rfl

/-! ### State.setEqx -/

@[simp] theorem State.setEqx_agenda (s : State) (i : CoreId) (x : Core) : (s.setEqx i x).agenda = s.agenda := rfl
@[simp] theorem State.setEqx_tick (s : State) (i : CoreId) (x : Core) : (s.setEqx i x).tick = s.tick := rfl
@[simp] theorem State.setEqx_cur (s : State) (i : CoreId) (x : Core) : (s.setEqx i x).cur = s.cur := rfl
@[simp] theorem State.setEqx_core (s : State) (i : CoreId) (x : Core) : (s.setEqx i x).core = s.core := rfl
@[simp] theorem State.setEqx_time (s : State) (i : CoreId) (x : Core) : (s.setEqx i x).time = s.time := rfl
@[simp] theorem State.setEqx_mem (s : State) (i : CoreId) (x : Core) : (s.setEqx i x).mem = s.mem := rfl
@[simp] theorem State.setEqx_sps (s : State) (i : CoreId) (x : Core) : (s.setEqx i x).sps = s.sps := rfl
@[simp] theorem State.setEqx_dies (s : State) (i : CoreId) (x : Core) : (s.setEqx i x).dies = s.dies := rfl
@[simp] theorem State.setEqx_cores (s : State) (i : CoreId) (x : Core) : (s.setEqx i x).cores = s.cores.set i x := rfl
@[simp] theorem State.setEqx_ctxs (s : State) (i : CoreId) (x : Core) : (s.setEqx i x).ctxs = s.ctxs := rfl
@[simp] theorem State.setEqx_gangs (s : State) (i : CoreId) (x : Core) : (s.setEqx i x).gangs = s.gangs := rfl
@[simp] theorem State.setEqx_launches (s : State) (i : CoreId) (x : Core) :
    (s.setEqx i x).launches = s.launches := rfl
@[simp] theorem State.setEqx_slots (s : State) (i : CoreId) (x : Core) : (s.setEqx i x).slots = s.slots := rfl
@[simp] theorem State.setEqx_slotSum (s : State) (i : CoreId) (x : Core) : (s.setEqx i x).slotSum = s.slotSum := rfl
@[simp] theorem State.setEqx_ctxSum (s : State) (i : CoreId) (x : Core) : (s.setEqx i x).ctxSum = s.ctxSum := rfl
@[simp] theorem State.setEqx_resv (s : State) (i : CoreId) (x : Core) : (s.setEqx i x).resv = s.resv := rfl
@[simp] theorem State.setEqx_dev (s : State) (i : CoreId) (x : Core) : (s.setEqx i x).dev = s.dev := rfl

/-! ### State.modEqx -/

@[simp] theorem State.modEqx_agenda (s : State) (i : CoreId) (f : Core → Core) :
    (s.modEqx i f).agenda = s.agenda := rfl
@[simp] theorem State.modEqx_tick (s : State) (i : CoreId) (f : Core → Core) : (s.modEqx i f).tick = s.tick := rfl
@[simp] theorem State.modEqx_cur (s : State) (i : CoreId) (f : Core → Core) : (s.modEqx i f).cur = s.cur := rfl
@[simp] theorem State.modEqx_core (s : State) (i : CoreId) (f : Core → Core) : (s.modEqx i f).core = s.core := rfl
@[simp] theorem State.modEqx_time (s : State) (i : CoreId) (f : Core → Core) : (s.modEqx i f).time = s.time := rfl
@[simp] theorem State.modEqx_mem (s : State) (i : CoreId) (f : Core → Core) : (s.modEqx i f).mem = s.mem := rfl
@[simp] theorem State.modEqx_sps (s : State) (i : CoreId) (f : Core → Core) : (s.modEqx i f).sps = s.sps := rfl
@[simp] theorem State.modEqx_dies (s : State) (i : CoreId) (f : Core → Core) : (s.modEqx i f).dies = s.dies := rfl
@[simp] theorem State.modEqx_cores (s : State) (i : CoreId) (f : Core → Core) :
    (s.modEqx i f).cores = s.cores.set i (f (s.eqx i)) := rfl
@[simp] theorem State.modEqx_ctxs (s : State) (i : CoreId) (f : Core → Core) : (s.modEqx i f).ctxs = s.ctxs := rfl
@[simp] theorem State.modEqx_gangs (s : State) (i : CoreId) (f : Core → Core) : (s.modEqx i f).gangs = s.gangs := rfl
@[simp] theorem State.modEqx_launches (s : State) (i : CoreId) (f : Core → Core) :
    (s.modEqx i f).launches = s.launches := rfl
@[simp] theorem State.modEqx_slots (s : State) (i : CoreId) (f : Core → Core) : (s.modEqx i f).slots = s.slots := rfl
@[simp] theorem State.modEqx_slotSum (s : State) (i : CoreId) (f : Core → Core) :
    (s.modEqx i f).slotSum = s.slotSum := rfl
@[simp] theorem State.modEqx_ctxSum (s : State) (i : CoreId) (f : Core → Core) :
    (s.modEqx i f).ctxSum = s.ctxSum := rfl
@[simp] theorem State.modEqx_resv (s : State) (i : CoreId) (f : Core → Core) :
    (s.modEqx i f).resv = s.resv := rfl
@[simp] theorem State.modEqx_dev (s : State) (i : CoreId) (f : Core → Core) : (s.modEqx i f).dev = s.dev := rfl

/-! ### State.setSlot -/

@[simp] theorem State.setSlot_agenda (s : State) (i : Fin 64) (x : Slot) : (s.setSlot i x).agenda = s.agenda := rfl
@[simp] theorem State.setSlot_tick (s : State) (i : Fin 64) (x : Slot) : (s.setSlot i x).tick = s.tick := rfl
@[simp] theorem State.setSlot_cur (s : State) (i : Fin 64) (x : Slot) : (s.setSlot i x).cur = s.cur := rfl
@[simp] theorem State.setSlot_core (s : State) (i : Fin 64) (x : Slot) : (s.setSlot i x).core = s.core := rfl
@[simp] theorem State.setSlot_time (s : State) (i : Fin 64) (x : Slot) : (s.setSlot i x).time = s.time := rfl
@[simp] theorem State.setSlot_mem (s : State) (i : Fin 64) (x : Slot) : (s.setSlot i x).mem = s.mem := rfl
@[simp] theorem State.setSlot_sps (s : State) (i : Fin 64) (x : Slot) : (s.setSlot i x).sps = s.sps := rfl
@[simp] theorem State.setSlot_dies (s : State) (i : Fin 64) (x : Slot) : (s.setSlot i x).dies = s.dies := rfl
@[simp] theorem State.setSlot_cores (s : State) (i : Fin 64) (x : Slot) : (s.setSlot i x).cores = s.cores := rfl
@[simp] theorem State.setSlot_ctxs (s : State) (i : Fin 64) (x : Slot) : (s.setSlot i x).ctxs = s.ctxs := rfl
@[simp] theorem State.setSlot_gangs (s : State) (i : Fin 64) (x : Slot) : (s.setSlot i x).gangs = s.gangs := rfl
@[simp] theorem State.setSlot_launches (s : State) (i : Fin 64) (x : Slot) :
    (s.setSlot i x).launches = s.launches := rfl
@[simp] theorem State.setSlot_slots (s : State) (i : Fin 64) (x : Slot) :
    (s.setSlot i x).slots = s.slots.set i x := rfl
@[simp] theorem State.setSlot_slotSum (s : State) (i : Fin 64) (x : Slot) : (s.setSlot i x).slotSum = s.slotSum := rfl
@[simp] theorem State.setSlot_ctxSum (s : State) (i : Fin 64) (x : Slot) : (s.setSlot i x).ctxSum = s.ctxSum := rfl
@[simp] theorem State.setSlot_resv (s : State) (i : Fin 64) (x : Slot) : (s.setSlot i x).resv = s.resv := rfl
@[simp] theorem State.setSlot_dev (s : State) (i : Fin 64) (x : Slot) : (s.setSlot i x).dev = s.dev := rfl

/-! ### State.modDev -/

@[simp] theorem State.modDev_agenda (s : State) (f : Dev → Dev) : (s.modDev f).agenda = s.agenda := rfl
@[simp] theorem State.modDev_tick (s : State) (f : Dev → Dev) : (s.modDev f).tick = s.tick := rfl
@[simp] theorem State.modDev_cur (s : State) (f : Dev → Dev) : (s.modDev f).cur = s.cur := rfl
@[simp] theorem State.modDev_core (s : State) (f : Dev → Dev) : (s.modDev f).core = s.core := rfl
@[simp] theorem State.modDev_time (s : State) (f : Dev → Dev) : (s.modDev f).time = s.time := rfl
@[simp] theorem State.modDev_mem (s : State) (f : Dev → Dev) : (s.modDev f).mem = s.mem := rfl
@[simp] theorem State.modDev_sps (s : State) (f : Dev → Dev) : (s.modDev f).sps = s.sps := rfl
@[simp] theorem State.modDev_dies (s : State) (f : Dev → Dev) : (s.modDev f).dies = s.dies := rfl
@[simp] theorem State.modDev_cores (s : State) (f : Dev → Dev) : (s.modDev f).cores = s.cores := rfl
@[simp] theorem State.modDev_ctxs (s : State) (f : Dev → Dev) : (s.modDev f).ctxs = s.ctxs := rfl
@[simp] theorem State.modDev_gangs (s : State) (f : Dev → Dev) : (s.modDev f).gangs = s.gangs := rfl
@[simp] theorem State.modDev_launches (s : State) (f : Dev → Dev) : (s.modDev f).launches = s.launches := rfl
@[simp] theorem State.modDev_slots (s : State) (f : Dev → Dev) : (s.modDev f).slots = s.slots := rfl
@[simp] theorem State.modDev_slotSum (s : State) (f : Dev → Dev) : (s.modDev f).slotSum = s.slotSum := rfl
@[simp] theorem State.modDev_ctxSum (s : State) (f : Dev → Dev) : (s.modDev f).ctxSum = s.ctxSum := rfl
@[simp] theorem State.modDev_resv (s : State) (f : Dev → Dev) : (s.modDev f).resv = s.resv := rfl
@[simp] theorem State.modDev_dev (s : State) (f : Dev → Dev) : (s.modDev f).dev = f s.dev := rfl

/-! ### State.modLaunch -/

@[simp] theorem State.modLaunch_agenda (s : State) (n : Nat) (f : Launch → Launch) :
    (s.modLaunch n f).agenda = s.agenda := rfl
@[simp] theorem State.modLaunch_tick (s : State) (n : Nat) (f : Launch → Launch) :
    (s.modLaunch n f).tick = s.tick := rfl
@[simp] theorem State.modLaunch_cur (s : State) (n : Nat) (f : Launch → Launch) : (s.modLaunch n f).cur = s.cur := rfl
@[simp] theorem State.modLaunch_core (s : State) (n : Nat) (f : Launch → Launch) :
    (s.modLaunch n f).core = s.core := rfl
@[simp] theorem State.modLaunch_time (s : State) (n : Nat) (f : Launch → Launch) :
    (s.modLaunch n f).time = s.time := rfl
@[simp] theorem State.modLaunch_mem (s : State) (n : Nat) (f : Launch → Launch) : (s.modLaunch n f).mem = s.mem := rfl
@[simp] theorem State.modLaunch_sps (s : State) (n : Nat) (f : Launch → Launch) : (s.modLaunch n f).sps = s.sps := rfl
@[simp] theorem State.modLaunch_dies (s : State) (n : Nat) (f : Launch → Launch) :
    (s.modLaunch n f).dies = s.dies := rfl
@[simp] theorem State.modLaunch_cores (s : State) (n : Nat) (f : Launch → Launch) :
    (s.modLaunch n f).cores = s.cores := rfl
@[simp] theorem State.modLaunch_ctxs (s : State) (n : Nat) (f : Launch → Launch) :
    (s.modLaunch n f).ctxs = s.ctxs := rfl
@[simp] theorem State.modLaunch_gangs (s : State) (n : Nat) (f : Launch → Launch) :
    (s.modLaunch n f).gangs = s.gangs := rfl
@[simp] theorem State.modLaunch_launches (s : State) (n : Nat) (f : Launch → Launch) :
    (s.modLaunch n f).launches = modList f s.launches n := rfl
@[simp] theorem State.modLaunch_slots (s : State) (n : Nat) (f : Launch → Launch) :
    (s.modLaunch n f).slots = s.slots := rfl
@[simp] theorem State.modLaunch_slotSum (s : State) (n : Nat) (f : Launch → Launch) :
    (s.modLaunch n f).slotSum = s.slotSum := rfl
@[simp] theorem State.modLaunch_ctxSum (s : State) (n : Nat) (f : Launch → Launch) :
    (s.modLaunch n f).ctxSum = s.ctxSum := rfl
@[simp] theorem State.modLaunch_resv (s : State) (n : Nat) (f : Launch → Launch) :
    (s.modLaunch n f).resv = s.resv := rfl
@[simp] theorem State.modLaunch_dev (s : State) (n : Nat) (f : Launch → Launch) : (s.modLaunch n f).dev = s.dev := rfl

/-! ### State.modGang -/

@[simp] theorem State.modGang_agenda (s : State) (n : Nat) (f : Gang → Gang) :
    (s.modGang n f).agenda = s.agenda := rfl
@[simp] theorem State.modGang_tick (s : State) (n : Nat) (f : Gang → Gang) : (s.modGang n f).tick = s.tick := rfl
@[simp] theorem State.modGang_cur (s : State) (n : Nat) (f : Gang → Gang) : (s.modGang n f).cur = s.cur := rfl
@[simp] theorem State.modGang_core (s : State) (n : Nat) (f : Gang → Gang) : (s.modGang n f).core = s.core := rfl
@[simp] theorem State.modGang_time (s : State) (n : Nat) (f : Gang → Gang) : (s.modGang n f).time = s.time := rfl
@[simp] theorem State.modGang_mem (s : State) (n : Nat) (f : Gang → Gang) : (s.modGang n f).mem = s.mem := rfl
@[simp] theorem State.modGang_sps (s : State) (n : Nat) (f : Gang → Gang) : (s.modGang n f).sps = s.sps := rfl
@[simp] theorem State.modGang_dies (s : State) (n : Nat) (f : Gang → Gang) : (s.modGang n f).dies = s.dies := rfl
@[simp] theorem State.modGang_cores (s : State) (n : Nat) (f : Gang → Gang) : (s.modGang n f).cores = s.cores := rfl
@[simp] theorem State.modGang_ctxs (s : State) (n : Nat) (f : Gang → Gang) : (s.modGang n f).ctxs = s.ctxs := rfl
@[simp] theorem State.modGang_gangs (s : State) (n : Nat) (f : Gang → Gang) :
    (s.modGang n f).gangs = modList f s.gangs n := rfl
@[simp] theorem State.modGang_launches (s : State) (n : Nat) (f : Gang → Gang) :
    (s.modGang n f).launches = s.launches := rfl
@[simp] theorem State.modGang_slots (s : State) (n : Nat) (f : Gang → Gang) : (s.modGang n f).slots = s.slots := rfl
@[simp] theorem State.modGang_slotSum (s : State) (n : Nat) (f : Gang → Gang) :
    (s.modGang n f).slotSum = s.slotSum := rfl
@[simp] theorem State.modGang_ctxSum (s : State) (n : Nat) (f : Gang → Gang) :
    (s.modGang n f).ctxSum = s.ctxSum := rfl
@[simp] theorem State.modGang_resv (s : State) (n : Nat) (f : Gang → Gang) :
    (s.modGang n f).resv = s.resv := rfl
@[simp] theorem State.modGang_dev (s : State) (n : Nat) (f : Gang → Gang) : (s.modGang n f).dev = s.dev := rfl

/-! ### State.physWrite -/

@[simp] theorem State.physWrite_agenda (s : State) (a : Nat) (d : List Byte) :
    (s.physWrite a d).agenda = s.agenda := rfl
@[simp] theorem State.physWrite_tick (s : State) (a : Nat) (d : List Byte) : (s.physWrite a d).tick = s.tick := rfl
@[simp] theorem State.physWrite_cur (s : State) (a : Nat) (d : List Byte) : (s.physWrite a d).cur = s.cur := rfl
@[simp] theorem State.physWrite_core (s : State) (a : Nat) (d : List Byte) : (s.physWrite a d).core = s.core := rfl
@[simp] theorem State.physWrite_time (s : State) (a : Nat) (d : List Byte) : (s.physWrite a d).time = s.time := rfl
@[simp] theorem State.physWrite_mem (s : State) (a : Nat) (d : List Byte) :
    (s.physWrite a d).mem = memWrite s.mem a d := rfl
@[simp] theorem State.physWrite_sps (s : State) (a : Nat) (d : List Byte) : (s.physWrite a d).sps = s.sps := rfl
@[simp] theorem State.physWrite_dies (s : State) (a : Nat) (d : List Byte) : (s.physWrite a d).dies = s.dies := rfl
@[simp] theorem State.physWrite_cores (s : State) (a : Nat) (d : List Byte) : (s.physWrite a d).cores = s.cores := rfl
@[simp] theorem State.physWrite_ctxs (s : State) (a : Nat) (d : List Byte) : (s.physWrite a d).ctxs = s.ctxs := rfl
@[simp] theorem State.physWrite_gangs (s : State) (a : Nat) (d : List Byte) : (s.physWrite a d).gangs = s.gangs := rfl
@[simp] theorem State.physWrite_launches (s : State) (a : Nat) (d : List Byte) :
    (s.physWrite a d).launches = s.launches := rfl
@[simp] theorem State.physWrite_slots (s : State) (a : Nat) (d : List Byte) : (s.physWrite a d).slots = s.slots := rfl
@[simp] theorem State.physWrite_slotSum (s : State) (a : Nat) (d : List Byte) :
    (s.physWrite a d).slotSum = s.slotSum := rfl
@[simp] theorem State.physWrite_ctxSum (s : State) (a : Nat) (d : List Byte) :
    (s.physWrite a d).ctxSum = s.ctxSum := rfl
@[simp] theorem State.physWrite_resv (s : State) (a : Nat) (d : List Byte) :
    (s.physWrite a d).resv =
      s.resv.filter fun r => !(decide (a < r.addr + r.size) && decide (r.addr < a + d.length)) := rfl
@[simp] theorem State.physWrite_dev (s : State) (a : Nat) (d : List Byte) :
    (s.physWrite a d).dev = { s.dev with poison := unpoison s.dev.poison a d.length } := rfl

/-! ### State.retire -/

@[simp] theorem State.retire_agenda (s : State) : (s.retire).agenda = s.agenda := rfl
@[simp] theorem State.retire_tick (s : State) : (s.retire).tick = s.tick := rfl
@[simp] theorem State.retire_cur (s : State) : (s.retire).cur = s.cur := rfl
@[simp] theorem State.retire_core (s : State) : (s.retire).core = s.core := rfl
@[simp] theorem State.retire_time (s : State) : (s.retire).time = s.time := rfl
@[simp] theorem State.retire_mem (s : State) : (s.retire).mem = s.mem := rfl
@[simp] theorem State.retire_sps (s : State) :
    (s.retire).sps = s.sps.set s.cur { s.me with r := { s.me.r with pc := s.me.r.nextPc }, pend := .none } := rfl
@[simp] theorem State.retire_dies (s : State) : (s.retire).dies = s.dies := rfl
@[simp] theorem State.retire_cores (s : State) : (s.retire).cores = s.cores := rfl
@[simp] theorem State.retire_ctxs (s : State) : (s.retire).ctxs = s.ctxs := rfl
@[simp] theorem State.retire_gangs (s : State) : (s.retire).gangs = s.gangs := rfl
@[simp] theorem State.retire_launches (s : State) : (s.retire).launches = s.launches := rfl
@[simp] theorem State.retire_slots (s : State) : (s.retire).slots = s.slots := rfl
@[simp] theorem State.retire_slotSum (s : State) : (s.retire).slotSum = s.slotSum := rfl
@[simp] theorem State.retire_ctxSum (s : State) : (s.retire).ctxSum = s.ctxSum := rfl
@[simp] theorem State.retire_resv (s : State) : (s.retire).resv = s.resv := rfl
@[simp] theorem State.retire_dev (s : State) : (s.retire).dev = s.dev := rfl

/-! ### State.jumpTo -/

@[simp] theorem State.jumpTo_agenda (s : State) (pc : W64) : (s.jumpTo pc).agenda = s.agenda := rfl
@[simp] theorem State.jumpTo_tick (s : State) (pc : W64) : (s.jumpTo pc).tick = s.tick := rfl
@[simp] theorem State.jumpTo_cur (s : State) (pc : W64) : (s.jumpTo pc).cur = s.cur := rfl
@[simp] theorem State.jumpTo_core (s : State) (pc : W64) : (s.jumpTo pc).core = s.core := rfl
@[simp] theorem State.jumpTo_time (s : State) (pc : W64) : (s.jumpTo pc).time = s.time := rfl
@[simp] theorem State.jumpTo_mem (s : State) (pc : W64) : (s.jumpTo pc).mem = s.mem := rfl
@[simp] theorem State.jumpTo_sps (s : State) (pc : W64) :
    (s.jumpTo pc).sps = s.sps.set s.cur { s.me with r := { s.me.r with pc := pc56 pc }, pend := .none } := rfl
@[simp] theorem State.jumpTo_dies (s : State) (pc : W64) : (s.jumpTo pc).dies = s.dies := rfl
@[simp] theorem State.jumpTo_cores (s : State) (pc : W64) : (s.jumpTo pc).cores = s.cores := rfl
@[simp] theorem State.jumpTo_ctxs (s : State) (pc : W64) : (s.jumpTo pc).ctxs = s.ctxs := rfl
@[simp] theorem State.jumpTo_gangs (s : State) (pc : W64) : (s.jumpTo pc).gangs = s.gangs := rfl
@[simp] theorem State.jumpTo_launches (s : State) (pc : W64) : (s.jumpTo pc).launches = s.launches := rfl
@[simp] theorem State.jumpTo_slots (s : State) (pc : W64) : (s.jumpTo pc).slots = s.slots := rfl
@[simp] theorem State.jumpTo_slotSum (s : State) (pc : W64) : (s.jumpTo pc).slotSum = s.slotSum := rfl
@[simp] theorem State.jumpTo_ctxSum (s : State) (pc : W64) : (s.jumpTo pc).ctxSum = s.ctxSum := rfl
@[simp] theorem State.jumpTo_resv (s : State) (pc : W64) : (s.jumpTo pc).resv = s.resv := rfl
@[simp] theorem State.jumpTo_dev (s : State) (pc : W64) : (s.jumpTo pc).dev = s.dev := rfl

/-! ### State.waits -/

@[simp] theorem State.waits_agenda (s : State) : (s.waits).agenda = s.agenda := rfl
@[simp] theorem State.waits_tick (s : State) : (s.waits).tick = s.tick := rfl
@[simp] theorem State.waits_cur (s : State) : (s.waits).cur = s.cur := rfl
@[simp] theorem State.waits_core (s : State) : (s.waits).core = s.core := rfl
@[simp] theorem State.waits_time (s : State) : (s.waits).time = s.time := rfl
@[simp] theorem State.waits_mem (s : State) : (s.waits).mem = s.mem := rfl
@[simp] theorem State.waits_sps (s : State) : (s.waits).sps = s.sps := rfl
@[simp] theorem State.waits_dies (s : State) : (s.waits).dies = s.dies := rfl
@[simp] theorem State.waits_cores (s : State) : (s.waits).cores = s.cores := rfl
@[simp] theorem State.waits_ctxs (s : State) : (s.waits).ctxs = s.ctxs := rfl
@[simp] theorem State.waits_gangs (s : State) : (s.waits).gangs = s.gangs := rfl
@[simp] theorem State.waits_launches (s : State) : (s.waits).launches = s.launches := rfl
@[simp] theorem State.waits_slots (s : State) : (s.waits).slots = s.slots := rfl
@[simp] theorem State.waits_slotSum (s : State) : (s.waits).slotSum = s.slotSum := rfl
@[simp] theorem State.waits_ctxSum (s : State) : (s.waits).ctxSum = s.ctxSum := rfl
@[simp] theorem State.waits_resv (s : State) : (s.waits).resv = s.resv := rfl
@[simp] theorem State.waits_dev (s : State) : (s.waits).dev = s.dev := rfl

/-! ### Parts after their update -/

@[simp] theorem State.sp_setSp (s : State) (i : SpId) (p : Sp) : (s.setSp i p).sp i = p := by
  simp [State.sp, State.setSp]

theorem State.sp_setSp_ne (s : State) (i j : SpId) (p : Sp) (h : j ≠ i) : (s.setSp i p).sp j = s.sp j := by
  have h2 : i.val ≠ j.val := fun x => h (Fin.ext x.symm)
  simp [State.sp, State.setSp, h2]

@[simp] theorem State.sp_modSp (s : State) (i : SpId) (f : Sp → Sp) : (s.modSp i f).sp i = f (s.sp i) :=
  State.sp_setSp ..

theorem State.sp_modSp_ne (s : State) (i j : SpId) (f : Sp → Sp) (h : j ≠ i) : (s.modSp i f).sp j = s.sp j :=
  State.sp_setSp_ne _ _ _ _ h

@[simp] theorem State.die_setDie (s : State) (i : DieId) (p : Die) : (s.setDie i p).die i = p := by
  simp [State.die, State.setDie]

theorem State.die_setDie_ne (s : State) (i j : DieId) (p : Die) (h : j ≠ i) : (s.setDie i p).die j = s.die j := by
  have h2 : i.val ≠ j.val := fun x => h (Fin.ext x.symm)
  simp [State.die, State.setDie, h2]

@[simp] theorem State.die_modDie (s : State) (i : DieId) (f : Die → Die) : (s.modDie i f).die i = f (s.die i) :=
  State.die_setDie ..

theorem State.die_modDie_ne (s : State) (i j : DieId) (f : Die → Die) (h : j ≠ i) : (s.modDie i f).die j = s.die j :=
  State.die_setDie_ne _ _ _ _ h

@[simp] theorem State.ctx_setCtx (s : State) (i : CtxId) (p : Ctx) : (s.setCtx i p).ctx i = p := by
  simp [State.ctx, State.setCtx]

theorem State.ctx_setCtx_ne (s : State) (i j : CtxId) (p : Ctx) (h : j ≠ i) : (s.setCtx i p).ctx j = s.ctx j := by
  have h2 : i.val ≠ j.val := fun x => h (Fin.ext x.symm)
  simp [State.ctx, State.setCtx, h2]

@[simp] theorem State.ctx_modCtx (s : State) (i : CtxId) (f : Ctx → Ctx) : (s.modCtx i f).ctx i = f (s.ctx i) :=
  State.ctx_setCtx ..

theorem State.ctx_modCtx_ne (s : State) (i j : CtxId) (f : Ctx → Ctx) (h : j ≠ i) : (s.modCtx i f).ctx j = s.ctx j :=
  State.ctx_setCtx_ne _ _ _ _ h

@[simp] theorem State.eqx_setEqx (s : State) (i : CoreId) (p : Core) : (s.setEqx i p).eqx i = p := by
  simp [State.eqx, State.setEqx]

theorem State.eqx_setEqx_ne (s : State) (i j : CoreId) (p : Core) (h : j ≠ i) : (s.setEqx i p).eqx j = s.eqx j := by
  have h2 : i.val ≠ j.val := fun x => h (Fin.ext x.symm)
  simp [State.eqx, State.setEqx, h2]

@[simp] theorem State.eqx_modEqx (s : State) (i : CoreId) (f : Core → Core) : (s.modEqx i f).eqx i = f (s.eqx i) :=
  State.eqx_setEqx ..

theorem State.eqx_modEqx_ne (s : State) (i j : CoreId) (f : Core → Core) (h : j ≠ i) : (s.modEqx i f).eqx j = s.eqx j :=
  State.eqx_setEqx_ne _ _ _ _ h

@[simp] theorem State.slot_setSlot (s : State) (i : Fin 64) (x : Slot) : (s.setSlot i x).slot i = x := by
  simp [State.slot, State.setSlot]

theorem State.slot_setSlot_ne (s : State) (i j : Fin 64) (x : Slot) (h : j ≠ i) : (s.setSlot i x).slot j = s.slot j := by
  have h2 : i.val ≠ j.val := fun x => h (Fin.ext x.symm)
  simp [State.slot, State.setSlot, h2]

@[simp] theorem State.me_modMe (s : State) (f : Sp → Sp) : (s.modMe f).me = f s.me := State.sp_modSp ..
@[simp] theorem State.me_modSp (s : State) (f : Sp → Sp) : (s.modSp s.cur f).me = f s.me := State.sp_modSp ..

theorem State.sp_modMe_ne (s : State) (f : Sp → Sp) (i : SpId) (h : i ≠ s.cur) : (s.modMe f).sp i = s.sp i :=
  State.sp_modSp_ne _ _ _ _ h

@[simp] theorem State.me_retire (s : State) :
    s.retire.me = { s.me with r := { s.me.r with pc := s.me.r.nextPc }, pend := .none } := State.me_modMe ..
@[simp] theorem State.me_jumpTo (s : State) (pc : W64) :
    (s.jumpTo pc).me = { s.me with r := { s.me.r with pc := pc56 pc }, pend := .none } := State.me_modMe ..
@[simp] theorem State.sp_physWrite (s : State) (a : Nat) (d : List Byte) (i : SpId) :
    (s.physWrite a d).sp i = s.sp i := rfl
@[simp] theorem State.me_physWrite (s : State) (a : Nat) (d : List Byte) : (s.physWrite a d).me = s.me := rfl

/-! ### State.chip: packets on the chip change nothing but what the device counts -/

variable (s : State) (ctx : CtxId) (ssid : BitVec 16) (slack : BitVec 12) (n : Nat)

@[simp] theorem State.chip_agenda : (s.chip ctx ssid slack n).agenda = s.agenda := by unfold State.chip; split <;> rfl
@[simp] theorem State.chip_tick : (s.chip ctx ssid slack n).tick = s.tick := by unfold State.chip; split <;> rfl
@[simp] theorem State.chip_cur : (s.chip ctx ssid slack n).cur = s.cur := by unfold State.chip; split <;> rfl
@[simp] theorem State.chip_core : (s.chip ctx ssid slack n).core = s.core := by unfold State.chip; split <;> rfl
@[simp] theorem State.chip_time : (s.chip ctx ssid slack n).time = s.time := by unfold State.chip; split <;> rfl
@[simp] theorem State.chip_mem : (s.chip ctx ssid slack n).mem = s.mem := by unfold State.chip; split <;> rfl
@[simp] theorem State.chip_sps : (s.chip ctx ssid slack n).sps = s.sps := by unfold State.chip; split <;> rfl
@[simp] theorem State.chip_dies : (s.chip ctx ssid slack n).dies = s.dies := by unfold State.chip; split <;> rfl
@[simp] theorem State.chip_cores : (s.chip ctx ssid slack n).cores = s.cores := by unfold State.chip; split <;> rfl
@[simp] theorem State.chip_ctxs : (s.chip ctx ssid slack n).ctxs = s.ctxs := by unfold State.chip; split <;> rfl
@[simp] theorem State.chip_gangs : (s.chip ctx ssid slack n).gangs = s.gangs := by unfold State.chip; split <;> rfl
@[simp] theorem State.chip_launches : (s.chip ctx ssid slack n).launches = s.launches := by unfold State.chip; split <;> rfl
@[simp] theorem State.chip_slots : (s.chip ctx ssid slack n).slots = s.slots := by unfold State.chip; split <;> rfl
@[simp] theorem State.chip_slotSum : (s.chip ctx ssid slack n).slotSum = s.slotSum := by unfold State.chip; split <;> rfl
@[simp] theorem State.chip_ctxSum : (s.chip ctx ssid slack n).ctxSum = s.ctxSum := by unfold State.chip; split <;> rfl
@[simp] theorem State.chip_resv : (s.chip ctx ssid slack n).resv = s.resv := by unfold State.chip; split <;> rfl
@[simp] theorem State.chip_zero : s.chip ctx ssid slack 0 = s := rfl
theorem State.chip_dev :
    (s.chip ctx ssid slack n).dev =
      { s.dev with seqs := (s.chip ctx ssid slack n).dev.seqs, chip := (s.chip ctx ssid slack n).dev.chip } := by
  unfold State.chip; split <;> rfl

/-! ### State.chipPort: packets of a port's request change nothing but the list of packets -/

@[simp] theorem State.chipPort_agenda (a : Nat) : (s.chipPort ctx a n).agenda = s.agenda := rfl
@[simp] theorem State.chipPort_tick (a : Nat) : (s.chipPort ctx a n).tick = s.tick := rfl
@[simp] theorem State.chipPort_cur (a : Nat) : (s.chipPort ctx a n).cur = s.cur := rfl
@[simp] theorem State.chipPort_core (a : Nat) : (s.chipPort ctx a n).core = s.core := rfl
@[simp] theorem State.chipPort_time (a : Nat) : (s.chipPort ctx a n).time = s.time := rfl
@[simp] theorem State.chipPort_mem (a : Nat) : (s.chipPort ctx a n).mem = s.mem := rfl
@[simp] theorem State.chipPort_sps (a : Nat) : (s.chipPort ctx a n).sps = s.sps := rfl
@[simp] theorem State.chipPort_dies (a : Nat) : (s.chipPort ctx a n).dies = s.dies := rfl
@[simp] theorem State.chipPort_cores (a : Nat) : (s.chipPort ctx a n).cores = s.cores := rfl
@[simp] theorem State.chipPort_ctxs (a : Nat) : (s.chipPort ctx a n).ctxs = s.ctxs := rfl
@[simp] theorem State.chipPort_gangs (a : Nat) : (s.chipPort ctx a n).gangs = s.gangs := rfl
@[simp] theorem State.chipPort_launches (a : Nat) : (s.chipPort ctx a n).launches = s.launches := rfl
@[simp] theorem State.chipPort_slots (a : Nat) : (s.chipPort ctx a n).slots = s.slots := rfl
@[simp] theorem State.chipPort_slotSum (a : Nat) : (s.chipPort ctx a n).slotSum = s.slotSum := rfl
@[simp] theorem State.chipPort_ctxSum (a : Nat) : (s.chipPort ctx a n).ctxSum = s.ctxSum := rfl
@[simp] theorem State.chipPort_resv (a : Nat) : (s.chipPort ctx a n).resv = s.resv := rfl
theorem State.chipPort_dev (a : Nat) :
    (s.chipPort ctx a n).dev = { s.dev with chip := (s.chipPort ctx a n).dev.chip } := rfl

end Sys2Proof.Machine
end

