-- ==== Sys2Proof/Laws/Kernel.lean ====
section
/-! SUPPORT. What issuing a slot op does: with no fault and nothing that holds it, the engine takes the op's effect and
nothing else changes; a fault suppresses it; an empty line freezes it. -/

namespace Sys2Proof.Machine

open Sys2Proof

/-- A slot op that nothing stops goes. -/
theorem Stage.verdict_go {st : Stage} {s : State} {sp : SpId} (h1 : st.allFaults (s.sp sp).ke = [])
    (h2 : st.lineHeld (s.sp sp) = false) (h3 : st.allowHeld (s.sp sp) = false) (h4 : st.claimHeld (s.sp sp).ke = false) :
    st.verdict s sp = .go := by
  unfold Stage.verdict
  simp only [h1, h2, h3, h4]
  simp

/-- One fault is the one reported. -/
theorem Stage.verdict_fault {st : Stage} {s : State} {sp : SpId} {c : Cause} (h : st.allFaults (s.sp sp).ke = [c]) :
    st.verdict s sp = .fault c := by
  unfold Stage.verdict
  simp only [h, pickCause]
  simp [Nat.mod_one]

/-- An empty line freezes what has no fault. -/
theorem Stage.verdict_line {st : Stage} {s : State} {sp : SpId} (h1 : st.allFaults (s.sp sp).ke = [])
    (h2 : st.lineHeld (s.sp sp) = true) : st.verdict s sp = .freeze true := by
  unfold Stage.verdict
  simp only [h1, h2]
  simp

/-- Without packets to send, the effect is the engine's alone. -/
theorem Stage.commit_local {st : Stage} {s : State} {sp : SpId} (h : st.sends = []) :
    st.commit s sp = some (s.modKe sp st.apply) := by
  unfold Stage.commit
  rw [h]
  rfl

theorem slotStep_go {f : State → SpId → Stage} {s : State} (h : (f s s.cur).verdict s s.cur = .go)
    (h5 : (f s s.cur).sends = []) : slotStep f s = s.modKe s.cur (f s s.cur).apply := by
  unfold slotStep
  simp only [h, Stage.commit_local h5]
  rfl

theorem slotStep_fault {f : State → SpId → Stage} {s : State} {c : Cause} (h : (f s s.cur).verdict s s.cur = .fault c) :
    slotStep f s = kernelFault s s.cur c := by
  unfold slotStep
  simp only [h]

theorem slotStep_freeze {f : State → SpId → Stage} {s : State} {l : Bool}
    (h : (f s s.cur).verdict s s.cur = .freeze l) : slotStep f s = markFreeze s s.cur l := by
  unfold slotStep
  simp only [h]

end Sys2Proof.Machine
end

