-- ==== Sys2Proof/Laws/PerInstr.lean ====
section
/-! SUPPORT. One lemma per instruction: it has a word of one kind at most. -/

namespace Sys2Proof.Laws.OneWord

open Sys2Proof

/-- An instruction with an SCP word has neither an Equinox word nor a bundle, and one with an Equinox word has no bundle. -/
def Statement (i : Instr) : Prop :=
  (encodeScp i ≠ none → encodeEqx i = none ∧ ∀ l, encodeKernel l i = none)
    ∧ (encodeEqx i ≠ none → ∀ l, encodeKernel l i = none)

theorem of_others {i : Instr} (h : encodeEqx i = none) (k : ∀ l, encodeKernel l i = none) : Statement i :=
  ⟨fun _ => ⟨h, k⟩, fun _ => k⟩

theorem of_kernel {i : Instr} (h : encodeScp i = none) (k : encodeEqx i = none) : Statement i :=
  ⟨fun x => absurd h x, fun x => absurd k x⟩

theorem of_eqx {i : Instr} (h : encodeScp i = none) (k : ∀ l, encodeKernel l i = none) : Statement i :=
  ⟨fun x => absurd h x, fun _ => k⟩

theorem nop : Statement (.nop) := of_others rfl fun _ => rfl
theorem trap (code : BitVec 20) : Statement (.trap code) := of_others rfl fun _ => rfl
theorem svc (code : BitVec 20) : Statement (.svc code) := of_others rfl fun _ => rfl
theorem tfence : Statement (.tfence) := of_others rfl fun _ => rfl
theorem fence (order : BitVec 2) (scope : BitVec 3) : Statement (.fence order scope) := of_others rfl fun _ => rfl
theorem ckpt (off : BitVec 20) : Statement (.ckpt off) := of_others rfl fun _ => rfl
theorem susp : Statement (.susp) := of_others rfl fun _ => rfl
theorem tend : Statement (.tend) := of_others rfl fun _ => rfl
theorem sget (d : SReg) (num : BitVec 12) : Statement (.sget d num) := of_others rfl fun _ => rfl
theorem sset (a : SReg) (num : BitVec 12) : Statement (.sset a num) := of_others rfl fun _ => rfl
theorem wset (k : BitVec 4) (a b : SReg) : Statement (.wset k a b) := of_others rfl fun _ => rfl
theorem gbar : Statement (.gbar) := of_others rfl fun _ => rfl
theorem add (d a b : SReg) : Statement (.add d a b) := of_others rfl fun _ => rfl
theorem sub (d a b : SReg) : Statement (.sub d a b) := of_others rfl fun _ => rfl
theorem mul (d a b : SReg) : Statement (.mul d a b) := of_others rfl fun _ => rfl
theorem mulh (sgn : Bool) (d a b : SReg) : Statement (.mulh sgn d a b) := of_others rfl fun _ => rfl
theorem div (sgn : Bool) (d a b : SReg) : Statement (.div sgn d a b) := of_others rfl fun _ => rfl
theorem rem (sgn : Bool) (d a b : SReg) : Statement (.rem sgn d a b) := of_others rfl fun _ => rfl
theorem and (d a b : SReg) : Statement (.and d a b) := of_others rfl fun _ => rfl
theorem or (d a b : SReg) : Statement (.or d a b) := of_others rfl fun _ => rfl
theorem xor (d a b : SReg) : Statement (.xor d a b) := of_others rfl fun _ => rfl
theorem shl (d a b : SReg) : Statement (.shl d a b) := of_others rfl fun _ => rfl
theorem shr (d a b : SReg) : Statement (.shr d a b) := of_others rfl fun _ => rfl
theorem sra (d a b : SReg) : Statement (.sra d a b) := of_others rfl fun _ => rfl
theorem min (sgn : Bool) (d a b : SReg) : Statement (.min sgn d a b) := of_others rfl fun _ => rfl
theorem max (sgn : Bool) (d a b : SReg) : Statement (.max sgn d a b) := of_others rfl fun _ => rfl
theorem cmp (cond : BitVec 4) (d a b : SReg) : Statement (.cmp cond d a b) := of_others rfl fun _ => rfl
theorem csel (d a b c : SReg) : Statement (.csel d a b c) := of_others rfl fun _ => rfl
theorem addi (d a : SReg) (imm : BitVec 20) : Statement (.addi d a imm) := of_others rfl fun _ => rfl
theorem li (d : SReg) (imm : BitVec 50) : Statement (.li d imm) := of_others rfl fun _ => rfl
theorem bfx (d a : SReg) (lsb wm1 : BitVec 6) : Statement (.bfx d a lsb wm1) := of_others rfl fun _ => rfl
theorem bfi (d a : SReg) (lsb wm1 : BitVec 6) : Statement (.bfi d a lsb wm1) := of_others rfl fun _ => rfl
theorem b (cond : BitVec 4) (a b : SReg) (imm : BitVec 20) : Statement (.b cond a b imm) := of_others rfl fun _ => rfl
theorem j (imm : BitVec 20) : Statement (.j imm) := of_others rfl fun _ => rfl
theorem jal (d : SReg) (imm : BitVec 20) : Statement (.jal d imm) := of_others rfl fun _ => rfl
theorem jr (a : SReg) : Statement (.jr a) := of_others rfl fun _ => rfl
theorem ldg (m : MemMod) (d a : SReg) (imm : BitVec 20) : Statement (.ldg m d a imm) := of_others rfl fun _ => rfl
theorem ldf (m : MemMod) (d a : SReg) (imm : BitVec 20) : Statement (.ldf m d a imm) := of_others rfl fun _ => rfl
theorem stg (m : MemMod) (a b : SReg) (imm : BitVec 20) : Statement (.stg m a b imm) := of_others rfl fun _ => rfl
theorem stf (m : MemMod) (a b : SReg) (imm : BitVec 20) : Statement (.stf m a b imm) := of_others rfl fun _ => rfl
theorem amog (m : MemMod) (code : BitVec 4) (d a b c : SReg) : Statement (.amog m code d a b c) :=
  of_others rfl fun _ => rfl
theorem amof (m : MemMod) (code : BitVec 4) (d a b c : SReg) : Statement (.amof m code d a b c) :=
  of_others rfl fun _ => rfl
theorem scopy (m : StrMod) (ti : BitVec 16) (a b : SReg) : Statement (.scopy m ti a b) := of_others rfl fun _ => rfl
theorem sfence (m : StrMod) (mask : BitVec 16) (a : SReg) : Statement (.sfence m mask a) := of_others rfl fun _ => rfl
theorem swait (m : StrMod) (a b : SReg) : Statement (.swait m a b) := of_others rfl fun _ => rfl
theorem swaitWp (m : StrMod) (a b : SReg) : Statement (.swaitWp m a b) := of_others rfl fun _ => rfl
theorem kload (m : StrMod) (kbase : BitVec 12) (a b c : SReg) : Statement (.kload m kbase a b c) :=
  of_others rfl fun _ => rfl
theorem krun (m : StrMod) (entry : BitVec 12) (chk : Bool) (a b : SReg) : Statement (.krun m entry chk a b) :=
  of_others rfl fun _ => rfl
theorem launch (d a : SReg) : Statement (.launch d a) := of_others rfl fun _ => rfl
theorem trig : Statement (.trig) := of_others rfl fun _ => rfl
theorem twait (d : SReg) : Statement (.twait d) := of_others rfl fun _ => rfl
theorem twaitId (d a : SReg) : Statement (.twaitId d a) := of_others rfl fun _ => rfl
theorem deal (d a : SReg) : Statement (.deal d a) := of_others rfl fun _ => rfl
theorem undeal (d a : SReg) : Statement (.undeal d a) := of_others rfl fun _ => rfl
theorem aadd (g : Guard) (ad a1 a2 : BitVec 5) (lsel : Bool) : Statement (.aadd g ad a1 a2 lsel) := of_kernel rfl rfl
theorem aaddi (g : Guard) (ad a1 : BitVec 5) (imm : BitVec 14) : Statement (.aaddi g ad a1 imm) := of_kernel rfl rfl
theorem asub (g : Guard) (ad a1 a2 : BitVec 5) (lsel : Bool) : Statement (.asub g ad a1 a2 lsel) := of_kernel rfl rfl
theorem amul (g : Guard) (ad a1 a2 : BitVec 5) (lsel : Bool) : Statement (.amul g ad a1 a2 lsel) := of_kernel rfl rfl
theorem ali (g : Guard) (ad : BitVec 5) : Statement (.ali g ad) := of_kernel rfl rfl
theorem acmp (g : Guard) (cond : BitVec 3) (pd : BitVec 4) (a1 a2 : BitVec 5) (lsel : Bool) :
    Statement (.acmp g cond pd a1 a2 lsel) := of_kernel rfl rfl
theorem asel (g : Guard) (ad : BitVec 5) (ps : BitVec 4) (a1 a2 : BitVec 5) (lsel : Bool) :
    Statement (.asel g ad ps a1 a2 lsel) := of_kernel rfl rfl
theorem ald (g : Guard) (ad vn a2 : BitVec 5) (lsel : Bool) (imm : BitVec 14) : Statement (.ald g ad vn a2 lsel imm) :=
  of_kernel rfl rfl
theorem atsr (g : Guard) (pd : BitVec 4) (tsr : BitVec 3) (bit : BitVec 2) : Statement (.atsr g pd tsr bit) :=
  of_kernel rfl rfl
theorem lcset (g : Guard) (a2 : BitVec 5) (lsel : Bool) (st : BitVec 8) : Statement (.lcset g a2 lsel st) :=
  of_kernel rfl rfl
theorem pmov (g : Guard) (pd ps : BitVec 4) (neg : Bool) : Statement (.pmov g pd ps neg) := of_kernel rfl rfl
theorem vadd (g : Guard) (fmt : BitVec 3) (rnd : BitVec 2) (vd : BitVec 5) (s1 s2 : VSrc) (m : MSel) :
    Statement (.vadd g fmt rnd vd s1 s2 m) := of_kernel rfl rfl
theorem vsub (g : Guard) (fmt : BitVec 3) (rnd : BitVec 2) (vd : BitVec 5) (s1 s2 : VSrc) (m : MSel) :
    Statement (.vsub g fmt rnd vd s1 s2 m) := of_kernel rfl rfl
theorem vmul (g : Guard) (fmt : BitVec 3) (rnd : BitVec 2) (vd : BitVec 5) (s1 s2 : VSrc) (m : MSel) :
    Statement (.vmul g fmt rnd vd s1 s2 m) := of_kernel rfl rfl
theorem vfma (g : Guard) (fmt : BitVec 3) (rnd : BitVec 2) (vd : BitVec 5) (s1 s2 s3 : VSrc) (m : MSel) :
    Statement (.vfma g fmt rnd vd s1 s2 s3 m) := of_kernel rfl rfl
theorem vmin (g : Guard) (fmt : BitVec 3) (rnd : BitVec 2) (vd : BitVec 5) (s1 s2 : VSrc) (m : MSel) :
    Statement (.vmin g fmt rnd vd s1 s2 m) := of_kernel rfl rfl
theorem vmax (g : Guard) (fmt : BitVec 3) (rnd : BitVec 2) (vd : BitVec 5) (s1 s2 : VSrc) (m : MSel) :
    Statement (.vmax g fmt rnd vd s1 s2 m) := of_kernel rfl rfl
theorem vexp2 (g : Guard) (fmt : BitVec 3) (rnd : BitVec 2) (vd : BitVec 5) (s1 : VSrc) (m : MSel) :
    Statement (.vexp2 g fmt rnd vd s1 m) := of_kernel rfl rfl
theorem vlog2 (g : Guard) (fmt : BitVec 3) (rnd : BitVec 2) (vd : BitVec 5) (s1 : VSrc) (m : MSel) :
    Statement (.vlog2 g fmt rnd vd s1 m) := of_kernel rfl rfl
theorem vrcp (g : Guard) (fmt : BitVec 3) (rnd : BitVec 2) (vd : BitVec 5) (s1 : VSrc) (m : MSel) :
    Statement (.vrcp g fmt rnd vd s1 m) := of_kernel rfl rfl
theorem vrsq (g : Guard) (fmt : BitVec 3) (rnd : BitVec 2) (vd : BitVec 5) (s1 : VSrc) (m : MSel) :
    Statement (.vrsq g fmt rnd vd s1 m) := of_kernel rfl rfl
theorem vcvt (g : Guard) (fmt cvt : BitVec 3) (rnd : BitVec 2) (vd : BitVec 5) (s1 : VSrc) (m : MSel) :
    Statement (.vcvt g fmt cvt rnd vd s1 m) := of_kernel rfl rfl
theorem viadd (g : Guard) (fmt : BitVec 3) (sat : Bool) (vd : BitVec 5) (s1 s2 : VSrc) (m : MSel) :
    Statement (.viadd g fmt sat vd s1 s2 m) := of_kernel rfl rfl
theorem visub (g : Guard) (fmt : BitVec 3) (sat : Bool) (vd : BitVec 5) (s1 s2 : VSrc) (m : MSel) :
    Statement (.visub g fmt sat vd s1 s2 m) := of_kernel rfl rfl
theorem vimul (g : Guard) (fmt : BitVec 3) (sat : Bool) (vd : BitVec 5) (s1 s2 : VSrc) (m : MSel) :
    Statement (.vimul g fmt sat vd s1 s2 m) := of_kernel rfl rfl
theorem vshl (g : Guard) (fmt : BitVec 3) (sat : Bool) (vd : BitVec 5) (s1 s2 : VSrc) (m : MSel) :
    Statement (.vshl g fmt sat vd s1 s2 m) := of_kernel rfl rfl
theorem vshr (g : Guard) (fmt : BitVec 3) (vd : BitVec 5) (s1 s2 : VSrc) (m : MSel) :
    Statement (.vshr g fmt vd s1 s2 m) := of_kernel rfl rfl
theorem vand (g : Guard) (fmt : BitVec 3) (vd : BitVec 5) (s1 s2 : VSrc) (m : MSel) :
    Statement (.vand g fmt vd s1 s2 m) := of_kernel rfl rfl
theorem vor (g : Guard) (fmt : BitVec 3) (vd : BitVec 5) (s1 s2 : VSrc) (m : MSel) :
    Statement (.vor g fmt vd s1 s2 m) := of_kernel rfl rfl
theorem vxor (g : Guard) (fmt : BitVec 3) (vd : BitVec 5) (s1 s2 : VSrc) (m : MSel) :
    Statement (.vxor g fmt vd s1 s2 m) := of_kernel rfl rfl
theorem vmov (g : Guard) (fmt : BitVec 3) (vd : BitVec 5) (s1 : VSrc) (m : MSel) : Statement (.vmov g fmt vd s1 m) :=
  of_kernel rfl rfl
theorem vsel (g : Guard) (fmt : BitVec 3) (vd : BitVec 5) (s1 s3 : VSrc) (msk : BitVec 3) :
    Statement (.vsel g fmt vd s1 s3 msk) := of_kernel rfl rfl
theorem vcmp (g : Guard) (cond : BitVec 4) (fmt : BitVec 3) (md : BitVec 3) (s1 s2 : VSrc) (m : MSel) :
    Statement (.vcmp g cond fmt md s1 s2 m) := of_kernel rfl rfl
theorem vrotr (g : Guard) (fmt : BitVec 3) (vd : BitVec 5) (s1 : VSrc) (n : BitVec 8) (m : MSel) :
    Statement (.vrotr g fmt vd s1 n m) := of_kernel rfl rfl
theorem vrotc (g : Guard) (fmt : BitVec 3) (vd : BitVec 5) (s1 : VSrc) (n : BitVec 8) (m : MSel) :
    Statement (.vrotc g fmt vd s1 n m) := of_kernel rfl rfl
theorem vbcr (g : Guard) (fmt : BitVec 3) (vd : BitVec 5) (s1 : VSrc) (n : BitVec 8) (m : MSel) :
    Statement (.vbcr g fmt vd s1 n m) := of_kernel rfl rfl
theorem vbcc (g : Guard) (fmt : BitVec 3) (vd : BitVec 5) (s1 : VSrc) (n : BitVec 8) (m : MSel) :
    Statement (.vbcc g fmt vd s1 n m) := of_kernel rfl rfl
theorem vredr (g : Guard) (op : BitVec 4) (fmt : BitVec 3) (vd : BitVec 5) (s1 : VSrc) (m : MSel) :
    Statement (.vredr g op fmt vd s1 m) := of_kernel rfl rfl
theorem vredc (g : Guard) (op : BitVec 4) (fmt : BitVec 3) (vd : BitVec 5) (s1 : VSrc) (m : MSel) :
    Statement (.vredc g op fmt vd s1 m) := of_kernel rfl rfl
theorem vscanr (g : Guard) (op : BitVec 4) (fmt : BitVec 3) (vd : BitVec 5) (s1 : VSrc) (m : MSel) :
    Statement (.vscanr g op fmt vd s1 m) := of_kernel rfl rfl
theorem viota (g : Guard) (mode : BitVec 4) (fmt : BitVec 3) (vd : BitVec 5) (m : MSel) :
    Statement (.viota g mode fmt vd m) := of_kernel rfl rfl
theorem vtopk (g : Guard) (fmt : BitVec 3) (vd : BitVec 5) (s1 s2 s3 : VSrc) (km1 : BitVec 8) (merge : Bool) :
    Statement (.vtopk g fmt vd s1 s2 s3 km1 merge) := of_kernel rfl rfl
theorem vtrn (g : Guard) (fmt : BitVec 3) (vd : BitVec 5) (s1 : VSrc) (inv : Bool) :
    Statement (.vtrn g fmt vd s1 inv) := of_kernel rfl rfl
theorem vmask (g : Guard) (op : BitVec 4) (fmt : BitVec 3) (md : BitVec 3) (s1 s2 : VSrc) :
    Statement (.vmask g op fmt md s1 s2) := of_kernel rfl rfl
theorem mma (g : Guard) (fa fb : BitVec 4) (acc : BitVec 3) (oa ob : BitVec 5) (za zb : BitVec 4) :
    Statement (.mma g fa fb acc oa ob za zb) := of_kernel rfl rfl
theorem mzero (g : Guard) (acc : BitVec 3) : Statement (.mzero g acc) := of_kernel rfl rfl
theorem mdrain (g : Guard) (fmt : BitVec 3) (acc : BitVec 3) (v : BitVec 5) : Statement (.mdrain g fmt acc v) :=
  of_kernel rfl rfl
theorem mfill (g : Guard) (oa v : BitVec 5) (tr : Bool) : Statement (.mfill g oa v tr) := of_kernel rfl rfl
theorem oclaim (g : Guard) (oa : BitVec 5) : Statement (.oclaim g oa) := of_kernel rfl rfl
theorem orel (g : Guard) (oa : BitVec 5) : Statement (.orel g oa) := of_kernel rfl rfl
theorem lend (g : Guard) (bank : BitVec 3) : Statement (.lend g bank) := of_kernel rfl rfl
theorem recallBank (g : Guard) (bank : BitVec 3) : Statement (.recallBank g bank) := of_kernel rfl rfl
theorem unpk (g : Guard) (fmt : BitVec 3) (wide : BitVec 2) (vd : BitVec 5) (s1 : VSrc) (z : BitVec 4) (scl : Bool) (part : BitVec 3) :
    Statement (.unpk g fmt wide vd s1 z scl part) := of_kernel rfl rfl
theorem unpki (g : Guard) (fmt : BitVec 3) (wide : BitVec 2) (vd : BitVec 5) (s1 : VSrc) (part : BitVec 3) :
    Statement (.unpki g fmt wide vd s1 part) := of_kernel rfl rfl
theorem pack (g : Guard) (fmt : BitVec 3) (wide : BitVec 2) (vd : BitVec 5) (s1 : VSrc) (z : BitVec 4) (scl : Bool) (part : BitVec 3) :
    Statement (.pack g fmt wide vd s1 z scl part) := of_kernel rfl rfl
theorem packi (g : Guard) (fmt : BitVec 3) (wide : BitVec 2) (vd : BitVec 5) (s1 : VSrc) (part : BitVec 3) :
    Statement (.packi g fmt wide vd s1 part) := of_kernel rfl rfl
theorem pscale (g : Guard) (fmt : BitVec 3) (wide : BitVec 2) (s1 : VSrc) (z : BitVec 4) (part : BitVec 3) :
    Statement (.pscale g fmt wide s1 z part) := of_kernel rfl rfl
theorem scld (g : Guard) (zd : BitVec 4) (vs : BitVec 5) (row : BitVec 3) : Statement (.scld g zd vs row) :=
  of_kernel rfl rfl
theorem scset (g : Guard) (zd : BitVec 4) : Statement (.scset g zd) := of_kernel rfl rfl
theorem srd (g : Guard) (vd : BitVec 5) (q : BitVec 3) : Statement (.srd g vd q) := of_kernel rfl rfl
theorem srdx (g : Guard) (vd ar : BitVec 5) (lsel : Bool) : Statement (.srdx g vd ar lsel) := of_kernel rfl rfl
theorem swr (g : Guard) (s1 : VSrc) (q : BitVec 3) : Statement (.swr g s1 q) := of_kernel rfl rfl
theorem swrx (g : Guard) (s1 : VSrc) (ar : BitVec 5) (lsel : Bool) : Statement (.swrx g s1 ar lsel) := of_kernel rfl rfl
theorem swra (g : Guard) (s1 : VSrc) (ar : BitVec 5) (lsel : Bool) : Statement (.swra g s1 ar lsel) := of_kernel rfl rfl
theorem sfill (g : Guard) (s1 : VSrc) (q : BitVec 3) : Statement (.sfill g s1 q) := of_kernel rfl rfl
theorem xperm (g : Guard) (vd : BitVec 5) (s1 : VSrc) (pat : BitVec 8) : Statement (.xperm g vd s1 pat) :=
  of_kernel rfl rfl
theorem xbcast (g : Guard) (vd : BitVec 5) (s1 : VSrc) (c : BitVec 3) : Statement (.xbcast g vd s1 c) :=
  of_kernel rfl rfl
theorem xred (g : Guard) (op : BitVec 4) (fmt : BitVec 3) (vd : BitVec 5) (s1 : VSrc) :
    Statement (.xred g op fmt vd s1) := of_kernel rfl rfl
theorem xshift (g : Guard) (vd : BitVec 5) (s1 : VSrc) (sh : BitVec 4) (circ : Bool) :
    Statement (.xshift g vd s1 sh circ) := of_kernel rfl rfl
theorem xget (g : Guard) (ad : BitVec 5) (s1 : VSrc) (c : BitVec 3) : Statement (.xget g ad s1 c) := of_kernel rfl rfl
theorem xput (g : Guard) (vd as : BitVec 5) (bcast : Bool) : Statement (.xput g vd as bcast) := of_kernel rfl rfl
theorem jmp (target : BitVec 12) (stall : BitVec 4) : Statement (.jmp target stall) := of_kernel rfl rfl
theorem brp (target : BitVec 12) (pred : BitVec 4) (stall : BitVec 4) : Statement (.brp target pred stall) :=
  of_kernel rfl rfl
theorem call (target : BitVec 12) (stall : BitVec 4) : Statement (.call target stall) := of_kernel rfl rfl
theorem ret (stall : BitVec 4) : Statement (.ret stall) := of_kernel rfl rfl
theorem kend (stall : BitVec 4) : Statement (.kend stall) := of_kernel rfl rfl
theorem loop (target : BitVec 12) (stall : BitVec 4) : Statement (.loop target stall) := of_kernel rfl rfl
theorem loopPoll (target : BitVec 12) (stall : BitVec 4) : Statement (.loopPoll target stall) := of_kernel rfl rfl
theorem rep (l n : BitVec 6) (ia ib iacc : Bool) (stall : BitVec 4) : Statement (.rep l n ia ib iacc stall) :=
  of_kernel rfl rfl
theorem qfetch (r : RArgs) : Statement (.qfetch r) := of_eqx rfl fun _ => rfl
theorem bfext (r : RArgs) : Statement (.bfext r) := of_eqx rfl fun _ => rfl
theorem sigwait (r : RArgs) : Statement (.sigwait r) := of_eqx rfl fun _ => rfl
theorem dispatch (rd rs1 : BitVec 5) : Statement (.dispatch rd rs1) := of_eqx rfl fun _ => rfl
theorem qsave (r : RArgs) : Statement (.qsave r) := of_eqx rfl fun _ => rfl
theorem qload (r : RArgs) : Statement (.qload r) := of_eqx rfl fun _ => rfl
theorem launchPacket (ctx : CtxId) (qid : BitVec 12) (lrec rslt : W64) : Statement (.launchPacket ctx qid lrec rslt) :=
  of_others rfl fun _ => rfl
theorem ctxCreate (c : Cmd) : Statement (.ctxCreate c) := of_others rfl fun _ => rfl
theorem ctxDestroy (c : Cmd) : Statement (.ctxDestroy c) := of_others rfl fun _ => rfl
theorem memMap (c : Cmd) : Statement (.memMap c) := of_others rfl fun _ => rfl
theorem memUnmap (c : Cmd) : Statement (.memUnmap c) := of_others rfl fun _ => rfl
theorem queueCreate (c : Cmd) : Statement (.queueCreate c) := of_others rfl fun _ => rfl
theorem queueDestroy (c : Cmd) : Statement (.queueDestroy c) := of_others rfl fun _ => rfl
theorem zcoLoad (c : Cmd) : Statement (.zcoLoad c) := of_others rfl fun _ => rfl
theorem zcoUnload (c : Cmd) : Statement (.zcoUnload c) := of_others rfl fun _ => rfl
theorem regionRegister (c : Cmd) : Statement (.regionRegister c) := of_others rfl fun _ => rfl
theorem regionRevoke (c : Cmd) : Statement (.regionRevoke c) := of_others rfl fun _ => rfl
theorem qpCreate (c : Cmd) : Statement (.qpCreate c) := of_others rfl fun _ => rfl
theorem stateRead (c : Cmd) : Statement (.stateRead c) := of_others rfl fun _ => rfl
theorem preempt (c : Cmd) : Statement (.preempt c) := of_others rfl fun _ => rfl
theorem jobStop (c : Cmd) : Statement (.jobStop c) := of_others rfl fun _ => rfl
theorem ctxSetreg (c : Cmd) : Statement (.ctxSetreg c) := of_others rfl fun _ => rfl
theorem migrate (c : Cmd) : Statement (.migrate c) := of_others rfl fun _ => rfl
theorem devSetreg (c : Cmd) : Statement (.devSetreg c) := of_others rfl fun _ => rfl
theorem rmtSet (c : Cmd) : Statement (.rmtSet c) := of_others rfl fun _ => rfl
theorem memsplitWrite (v : W32) : Statement (.memsplitWrite v) := of_others rfl fun _ => rfl
theorem deviceRegisterWrite (r : DevReg) (v : W32) : Statement (.deviceRegisterWrite r v) := of_others rfl fun _ => rfl
theorem rdmaWrite (q : RdmaReq) (data : List Byte) : Statement (.rdmaWrite q data) := of_others rfl fun _ => rfl
theorem rdmaRead (q : RdmaReq) (len : Nat) : Statement (.rdmaRead q len) := of_others rfl fun _ => rfl
theorem send (qp : BitVec 14) (data : List Byte) : Statement (.send qp data) := of_others rfl fun _ => rfl
theorem cas (q : RdmaReq) (cmp new : W64) : Statement (.cas q cmp new) := of_others rfl fun _ => rfl
theorem fetchAdd (q : RdmaReq) (addend : W64) : Statement (.fetchAdd q addend) := of_others rfl fun _ => rfl
theorem connectionManagementMad (peer : W64) (mtu : Nat) : Statement (.connectionManagementMad peer mtu) :=
  of_others rfl fun _ => rfl
theorem read (h : SahatHdr) : Statement (.read h) := of_others rfl fun _ => rfl
theorem pwr (h : SahatHdr) (data : List Byte) : Statement (.pwr h data) := of_others rfl fun _ => rfl
theorem npwr (h : SahatHdr) (data : List Byte) : Statement (.npwr h data) := of_others rfl fun _ => rfl
theorem fewr (h : SahatHdr) (data : List Byte) : Statement (.fewr h data) := of_others rfl fun _ => rfl
theorem atom (h : SahatHdr) (data : List Byte) : Statement (.atom h data) := of_others rfl fun _ => rfl
theorem rdata (h : SahatHdr) (data : List Byte) : Statement (.rdata h data) := of_others rfl fun _ => rfl
theorem adata (h : SahatHdr) (data : List Byte) : Statement (.adata h data) := of_others rfl fun _ => rfl
theorem ack (h : SahatHdr) : Statement (.ack h) := of_others rfl fun _ => rfl
theorem nak (h : SahatHdr) : Statement (.nak h) := of_others rfl fun _ => rfl
theorem fabricTimeout (ssid : BitVec 16) (tag : BitVec 12) : Statement (.fabricTimeout ssid tag) :=
  of_others rfl fun _ => rfl
theorem overdue (st : StId) (k : Nat) : Statement (.overdue st k) := of_others rfl fun _ => rfl
theorem feTimeout (r : FeReader) : Statement (.feTimeout r) := of_others rfl fun _ => rfl
theorem watchdogHang (ctx : CtxId) : Statement (.watchdogHang ctx) := of_others rfl fun _ => rfl
theorem forcedStop (gang : Nat) : Statement (.forcedStop gang) := of_others rfl fun _ => rfl
theorem saveTimeout (gang : Nat) : Statement (.saveTimeout gang) := of_others rfl fun _ => rfl
theorem ageingInterval (die : DieId) : Statement (.ageingInterval die) := of_others rfl fun _ => rfl
theorem governorFreeze (sp : SpId) : Statement (.governorFreeze sp) := of_others rfl fun _ => rfl
theorem dispatchDecision (die : DieId) (place : Placement) : Statement (.dispatchDecision die place) :=
  of_others rfl fun _ => rfl
theorem gangRelease (gang : Nat) : Statement (.gangRelease gang) := of_others rfl fun _ => rfl
theorem split (donorDie : DieId) (donor : Fin 16) (thiefDie : DieId) (thief : Fin 16) :
    Statement (.split donorDie donor thiefDie thief) := of_others rfl fun _ => rfl
theorem splitGrant (die : DieId) (walker : Fin 16) : Statement (.splitGrant die walker) := of_others rfl fun _ => rfl
theorem poolDispatch (die : DieId) : Statement (.poolDispatch die) := of_others rfl fun _ => rfl
theorem walkerRestore (ctx : CtxId) : Statement (.walkerRestore ctx) := of_others rfl fun _ => rfl
theorem gangWriteBack (gang : Nat) : Statement (.gangWriteBack gang) := of_others rfl fun _ => rfl
theorem gangResume (gang : Nat) (die : DieId) (place : Placement) : Statement (.gangResume gang die place) :=
  of_others rfl fun _ => rfl
theorem repairComplete (gang : Nat) : Statement (.repairComplete gang) := of_others rfl fun _ => rfl
theorem hostPageIn (ctx : CtxId) (va : W64) (data : Option (List Byte)) : Statement (.hostPageIn ctx va data) :=
  of_others rfl fun _ => rfl
theorem storeFaultReplay (sp : SpId) : Statement (.storeFaultReplay sp) := of_others rfl fun _ => rfl
theorem shootdownAck (u : TlbUnit) : Statement (.shootdownAck u) := of_others rfl fun _ => rfl
theorem copyStart (sp : SpId) (ch : ChId) : Statement (.copyStart sp ch) := of_others rfl fun _ => rfl
theorem copyEnd (sp : SpId) (ch : ChId) : Statement (.copyEnd sp ch) := of_others rfl fun _ => rfl
theorem sfenceComplete (sp : SpId) (tag : TagId) : Statement (.sfenceComplete sp tag) := of_others rfl fun _ => rfl
theorem kloadStart (sp : SpId) : Statement (.kloadStart sp) := of_others rfl fun _ => rfl
theorem kloadComplete (sp : SpId) : Statement (.kloadComplete sp) := of_others rfl fun _ => rfl
theorem kernelStart (sp : SpId) : Statement (.kernelStart sp) := of_others rfl fun _ => rfl
theorem kernelEnd (sp : SpId) : Statement (.kernelEnd sp) := of_others rfl fun _ => rfl
theorem repReissue (sp : SpId) : Statement (.repReissue sp) := of_others rfl fun _ => rfl
theorem completionWrite (launch : Nat) : Statement (.completionWrite launch) := of_others rfl fun _ => rfl
theorem dealCount (die : DieId) : Statement (.dealCount die) := of_others rfl fun _ => rfl
theorem dealScatter (die : DieId) : Statement (.dealScatter die) := of_others rfl fun _ => rfl
theorem dealPublish (die : DieId) : Statement (.dealPublish die) := of_others rfl fun _ => rfl
theorem undealCombine (die : DieId) : Statement (.undealCombine die) := of_others rfl fun _ => rfl
theorem reset : Statement (.reset) := of_others rfl fun _ => rfl
theorem correctableError (l : ErrLoc) : Statement (.correctableError l) := of_others rfl fun _ => rfl
theorem uncorrectableError (l : ErrLoc) : Statement (.uncorrectableError l) := of_others rfl fun _ => rfl
theorem scrub : Statement (.scrub) := of_others rfl fun _ => rfl
theorem spRetired (sp : SpId) : Statement (.spRetired sp) := of_others rfl fun _ => rfl
theorem linkDegraded (st : StId) (lanes : BitVec 3) : Statement (.linkDegraded st lanes) := of_others rfl fun _ => rfl
theorem eqxImemEcc (core : CoreId) : Statement (.eqxImemEcc core) := of_others rfl fun _ => rfl
theorem queueTableRestored (ctx : CtxId) (qid : BitVec 12) (copyB : Bool) :
    Statement (.queueTableRestored ctx qid copyB) := of_others rfl fun _ => rfl
theorem thermalEvent (die : DieId) (temp : Nat) : Statement (.thermalEvent die temp) := of_others rfl fun _ => rfl
theorem thermalRecovery (die : DieId) (temp : Nat) : Statement (.thermalRecovery die temp) := of_others rfl fun _ => rfl
theorem thermalShutdown (die : DieId) (temp : Nat) : Statement (.thermalShutdown die temp) := of_others rfl fun _ => rfl
theorem srfAbsent (k : Nat) : Statement (.srfAbsent k) := of_others rfl fun _ => rfl
theorem illegalInstruction (w : W64) : Statement (.illegalInstruction w) := of_others rfl fun _ => rfl
theorem eqxIllegalInstruction (w : W32) : Statement (.eqxIllegalInstruction w) := of_others rfl fun _ => rfl

end Sys2Proof.Laws.OneWord
end

