-- ==== Sys2Proof/Laws/Scp.lean ====
section
/-! SUPPORT. What the shared operations of the SCP do: reading and writing registers, retiring,
branching, waiting, and accesses that loop back. -/

namespace Sys2Proof.Machine

open Sys2Proof

theorem ScpRegs.get_zero (r : ScpRegs) : r.get 0 = 0 := by simp [ScpRegs.get]

theorem ScpRegs.get_put_same (r : ScpRegs) (i : SReg) (v : W64) (h : i ≠ 0) : (r.put i v).get i = v := by
  unfold ScpRegs.get ScpRegs.put
  rw [if_neg h, if_neg h]
  simp

theorem ScpRegs.get_put_ne (r : ScpRegs) (i j : SReg) (v : W64) (h : j ≠ i) : (r.put i v).get j = r.get j := by
  have h2 : i.toNat ≠ j.toNat := fun x => h (BitVec.eq_of_toNat_eq x.symm)
  unfold ScpRegs.get ScpRegs.put
  by_cases hi : i = 0
  · rw [if_pos hi]
  · rw [if_neg hi]
    by_cases hj : j = 0
    · rw [if_pos hj, if_pos hj]
    · rw [if_neg hj, if_neg hj]
      simp [h2]

/-- A write changes the registers and nothing else of the strand. -/
theorem ScpRegs.put_eq (r : ScpRegs) (i : SReg) (v : W64) : r.put i v = { r with s := (r.put i v).s } := by
  unfold ScpRegs.put; split <;> rfl

theorem ScpRegs.get_of_s (r q : ScpRegs) (h : r.s = q.s) (i : SReg) : r.get i = q.get i := by simp [ScpRegs.get, h]

/-- Changing the SP under execution changes nothing else. -/
theorem State.onlyMe_modMe (s : State) (f : Sp → Sp) : OnlyMe s (s.modMe f) :=
  ⟨rfl, fun _ h => State.sp_modMe_ne _ _ _ h⟩

theorem OnlyMe.cur_eq {s t : State} (h : OnlyMe s t) : t.cur = s.cur := by rw [h.1]

theorem OnlyMe.trans {s t u : State} (h : OnlyMe s t) (k : OnlyMe t u) : OnlyMe s u := by
  refine ⟨?_, fun i hi => ?_⟩
  · rw [k.1, h.1]
  · rw [k.2 i (by rw [h.cur_eq]; exact hi), h.2 i hi]

theorem OnlyMe.sameMem {s t : State} (h : OnlyMe s t) : SameMem s t := by intro a; rw [h.1]

/-- What retireTo does: everything. -/
theorem State.retireTo_wrote (s : State) (d : SReg) (v : W64) : Wrote s (s.retireTo d v) d v where
  only := by
    unfold State.retireTo State.retire
    exact (State.onlyMe_modMe _ _).trans (State.onlyMe_modMe _ _)
  mem := fun _ => rfl
  rest := by
    have e : (s.retireTo d v).me = { s.me with r := { s.me.r.put d v with pc := (s.me.r.put d v).nextPc }, pend := .none } := by
      show (State.retire _).me = _
      rw [State.me_retire, State.me_modMe]; rfl
    rw [e, ScpRegs.put_eq]
  pc := by
    show (State.retire _).me.r.pc = _
    rw [State.me_retire, State.me_modMe]
    show pc56 ((s.me.r.put d v).pc + 8) = _
    rw [ScpRegs.put_eq]
  zero := ScpRegs.get_zero _
  dest := fun h => by
    show ((State.retire _).me.r).get d = v
    rw [State.me_retire, State.me_modMe]
    exact ScpRegs.get_put_same _ _ _ h
  keep := fun j h => by
    show ((State.retire _).me.r).get j = s.me.r.get j
    rw [State.me_retire, State.me_modMe]
    exact ScpRegs.get_put_ne _ _ _ _ h

/-- What noteIdz followed by retireTo does for a divisor of 0. -/
theorem State.noteIdz_zero (s : State) (d : SReg) (v : W64) :
    WroteFlags s ((s.noteIdz 0).retireTo d v) d v (setIdz s.me.r.aflags) := by
  have w := State.retireTo_wrote (s.modMe fun p => p.modR fun r => { r with aflags := setIdz r.aflags }) d v
  have e : s.noteIdz 0 = s.modMe fun p => p.modR fun r => { r with aflags := setIdz r.aflags } := by
    simp [State.noteIdz]
  rw [e]
  refine ⟨(State.onlyMe_modMe s _).trans w.only, fun _ => rfl, ?_, ?_, w.zero, w.dest, fun j h => ?_⟩
  · rw [w.rest, State.me_modMe]; rfl
  · rw [w.pc, State.me_modMe]; rfl
  · rw [w.keep j h]
    show (State.modMe s _).me.r.get j = _
    rw [State.me_modMe]; rfl

theorem State.noteIdz_ne (s : State) (b : W64) (h : b ≠ 0) : s.noteIdz b = s := by
  unfold State.noteIdz; rw [if_neg h]

/-- What retire does: everything. -/
theorem State.retire_wentTo (s : State) : WentTo s s.retire s.after :=
  ⟨State.onlyMe_modMe s _, fun _ => rfl, State.me_retire s⟩

/-- What jumpTo does: everything, for an address of 56 bits. -/
theorem State.jumpTo_wentTo (s : State) (pc : W64) (h : pc56 pc = pc) : WentTo s (s.jumpTo pc) pc :=
  ⟨State.onlyMe_modMe s _, fun _ => rfl, by rw [State.me_jumpTo, h]⟩

/-- A target that R257 admits has 56 bits. -/
theorem pc56_of_ok (t : W64) (h : t &&& 0xFF00_0000_0000_0007 = 0) : pc56 t = t := by
  apply BitVec.eq_of_getLsbD_eq
  intro i hi
  have := congrArg (fun x => x.getLsbD i) h
  simp only [pc56, BitVec.getLsbD_and] at this ⊢
  have key : (0x00FF_FFFF_FFFF_FFFF : W64).getLsbD i = true ∨ (0xFF00_0000_0000_0007 : W64).getLsbD i = true := by
    have : ∀ j : Fin 64, (0x00FF_FFFF_FFFF_FFFF : W64).getLsbD j = true ∨ (0xFF00_0000_0000_0007 : W64).getLsbD j = true := by
      decide
    exact this ⟨i, hi⟩
  rcases key with k | k <;> simp_all

/-- What branch does with a target that R257 admits, and with another. -/
theorem State.branch_ok (s : State) (t : W64) (h : t &&& 0xFF00_0000_0000_0007 = 0) : s.branch t = s.jumpTo t := by
  unfold State.branch targetOk; rw [if_pos (by simpa using h)]

theorem State.branch_bad (s : State) (t : W64) (h : t &&& 0xFF00_0000_0000_0007 ≠ 0) : s.branch t = s.illegal := by
  unfold State.branch targetOk; rw [if_neg (by simpa using h)]

/-- A word offset of a branch counts instructions of 8 bytes. -/
theorem branchTo_eq (pc : W64) (imm : BitVec 20) : branchTo pc imm = pc + imm.signExtend 64 * 8 := by
  have h : ∀ x : W64, x <<< 3 = x * 8 := by
    intro x
    apply BitVec.eq_of_toNat_eq
    simp [BitVec.toNat_shiftLeft, BitVec.toNat_mul, Nat.shiftLeft_eq]
  rw [branchTo, h]

/-! ## Accesses that loop back -/

theorem loopBusy_fillTlb (s : State) (u : TUnit) (ctx : CtxId) (l : Leaf) (via : Option (Fin 16)) (f : Option SpId) (pa n : Nat) :
    loopBusy (fillTlb s u ctx l) via f pa n = loopBusy s via f pa n := by
  cases u <;> rfl

/-- No posted write of the strand is open, so none loops back. -/
theorem loopBusy_of_closed {s : State} (h : remoteOpen s = false) (via : Option (Fin 16)) (f : Option SpId) (pa n : Nat) :
    loopBusy s via f pa n = false := by
  simp only [remoteOpen, List.any_eq_false] at h
  simp only [loopBusy, List.any_eq_false]
  intro t ht
  simp [h t ht]

theorem State.modSp_same {s : State} {i : SpId} {f : Sp → Sp} (h : f (s.sp i) = s.sp i) : s.modSp i f = s := by
  simp only [State.modSp, State.setSp, h]
  simp [State.sp]

/-- With no store in flight, performing those of some bytes changes nothing. -/
theorem drainIf_nil (c : WeakStore → Bool) {s : State} {i : SpId} (h : (s.sp i).sto.weak = []) : drainIf c s i = s := by
  simp only [drainIf, h, List.filter_nil, List.foldl_nil]
  exact State.modSp_same (by rw [← h])

/-- A request with no earlier access of the strand before it passes at once (R140, R169). -/
theorem State.loopGate_free {s : State} {acc : BitVec 11} (h : LoopFree s acc) (via : Option (Fin 16)) (key : W32) (addr n : Nat)
    (k : State → State) : s.loopGate via acc key addr n k = k s := by
  unfold State.loopGate
  split
  · rename_i ha
    obtain ⟨hw, ho⟩ := h ha
    simp only [loopBusy_of_closed ho, List.any_eq_true, Bool.false_eq_true, and_false, exists_false, if_false]
    generalize List.filterMap _ _ = l
    congr 1
    induction l with
    | nil => rfl
    | cons p l ih => simpa [List.foldl_cons, drainIf_nil _ hw] using ih
  · rfl

theorem State.selfGate_free {s : State} {f : Option SpId} {pa n : Nat} (h : loopBusy s none f pa n = false) (k : State → State) :
    s.selfGate f pa n k = k s := by
  simp [State.selfGate, h]

end Sys2Proof.Machine
end

