-- ==== Sys2Proof/Tests/Slice0.lean ====
section
/-! SUPPORT. The model's own tests. Ill-formed instructions, one for each check of `WellFormed`; words written out from the
encoding tables and examples of the manual; and for each statement of Certificates/Slice0/Obligations.lean that has
hypotheses, states and operands that meet them (`witness_…`), at the ends of the ranges where there are ranges. -/

namespace Sys2Proof.Tests

open Sys2Proof Sys2Proof.Machine

set_option Elab.async false

/-! ## Well-formedness -/

def allRefused (l : List Instr) : Bool := l.all fun i => !WellFormed i
def allTaken (l : List Instr) : Bool := l.all WellFormed

def src (n : Nat) : VSrc := ⟨false, BitVec.ofNat 6 n⟩
def held (n : Nat) : VSrc := ⟨true, BitVec.ofNat 6 n⟩
def whole : MSel := ⟨false, 0⟩

/-- R136, R257, R259, R260, R290, R295: fence, special registers, conditions, bit fields. -/
theorem test_refuses_scp_fields : allRefused
    [.fence 0 3, .fence 1 6, .sget 1 0x014, .sget 1 0x030, .sget 1 0x060, .sset 1 0x007, .sset 1 0x011, .cmp 6 1 2 3,
     .b 6 1 2 0, .bfx 1 2 1 63, .bfi 1 2 63 1] = true := by decide

/-- R258, R283, R315 to R317, R374 to R377: MOD of the memory instructions; AMO codes and sizes. -/
theorem test_refuses_memory_mod : allRefused
    [.ldg ⟨3, 2, 0, 0⟩ 1 2 0, .ldg ⟨3, 0, 6, 0⟩ 1 2 0, .ldf ⟨3, 3, 0, 0⟩ 1 2 0, .stg ⟨3, 1, 0, 0⟩ 1 2 0,
     .stg ⟨3, 0, 7, 0⟩ 1 2 0, .stf ⟨3, 3, 0, 0⟩ 1 2 0, .amog ⟨3, 0, 0, 0⟩ 11 1 2 3 0, .amog ⟨1, 0, 0, 0⟩ 0 1 2 3 0,
     .amof ⟨3, 0, 0, 0⟩ 10 1 2 3 0, .amof ⟨3, 0, 0, 0⟩ 8 1 2 3 4, .amog ⟨2, 0, 6, 0⟩ 0 1 2 3 0] = true := by decide

/-- R258: CHAN is 0 in sfence, kload and krun. -/
theorem test_refuses_stream_mod : allRefused
    [.sfence ⟨1, 0, 0⟩ 1 2, .kload ⟨15, 0, 0⟩ 0 1 2 3, .krun ⟨8, 0, 0⟩ 0 true 1 2] = true := by decide

/-- R276, R281, R286, R313: the SA slot. -/
theorem test_refuses_sa : allRefused
    [.aadd 0 1 2 3 true, .asub 0 1 2 3 true, .amul 0 1 2 3 true, .acmp 0 6 1 2 3 false, .acmp 0 0 1 2 3 true,
     .asel 0 1 2 3 4 true, .ald 0 1 2 3 true 0, .atsr 0 1 6 0, .atsr 0 1 5 3, .lcset 0 0 true 0, .lcset 0 1 true 1]
    = true := by decide

/-- R92, R394 to R396: formats and sources of the VA slot. -/
theorem test_refuses_va : allRefused
    [.vadd 0 3 0 1 (src 0) (src 0) whole, .vsub 0 0 0 1 (src 35) (src 0) whole, .vmul 0 0 0 1 (src 0) (held 32) whole,
     .vfma 0 0 0 1 (src 0) (src 0) (src 63) whole, .vmin 0 3 1 1 (src 0) (src 0) whole, .vmax 0 7 0 1 (src 0) (src 0) whole,
     .vexp2 0 4 0 1 (src 0) whole, .vlog2 0 7 0 1 (src 0) whole, .vrcp 0 0 0 1 (held 32) whole,
     .vrsq 0 5 0 1 (src 0) whole, .vcvt 0 7 0 0 1 (src 0) whole, .vcvt 0 0 7 0 1 (src 0) whole,
     .viadd 0 2 true 1 (src 0) (src 0) whole, .visub 0 7 true 1 (src 0) (src 0) whole,
     .vimul 0 3 true 1 (src 36) (src 0) whole, .vshl 0 0 true 1 (src 0) (src 0) whole,
     .vshr 0 1 1 (src 0) (src 0) whole, .vand 0 2 1 (src 0) (src 0) whole, .vor 0 7 1 (src 0) (src 0) whole,
     .vxor 0 3 1 (src 0) (held 32) whole] = true := by decide

/-- R392, R397, R398, R404 to R410: the VB slot. -/
theorem test_refuses_vb : allRefused
    [.vmov 0 7 1 (src 0) whole, .vsel 0 7 1 (src 0) (src 0) 0, .vcmp 0 6 0 1 (src 0) (src 0) whole,
     .vrotr 0 0 1 (src 0) 64 whole, .vrotr 0 1 1 (src 0) 128 whole, .vrotc 0 0 1 (src 0) 16 whole,
     .vbcr 0 3 1 (src 0) 64 whole, .vbcc 0 6 1 (src 0) 16 whole, .vredr 0 3 0 1 (src 0) whole,
     .vredc 0 6 3 1 (src 0) whole, .vscanr 0 0 7 1 (src 0) whole, .viota 0 3 3 1 whole, .viota 0 0 0 1 whole,
     .vtopk 0 1 0 (src 0) (src 0) (src 0) 0 false, .vtopk 0 0 1 (src 0) (src 0) (src 0) 0 false,
     .vtopk 0 0 0 (src 0) (src 0) (src 0) 64 false, .vtopk 0 0 0 (src 0) (src 1) (src 0) 0 false,
     .vtopk 0 0 0 (src 1) (src 0) (src 0) 0 true, .vtopk 0 0 0 (src 33) (src 0) (src 0) 0 true,
     .vtrn 0 7 1 (src 0) false, .vmask 0 7 0 1 (src 0) (src 0), .vmask 0 0 0 1 (src 8) (src 0),
     .vmask 0 4 0 1 (src 0) (src 1), .vmask 0 5 0 1 (src 1) (src 0), .vmask 0 6 0 1 (src 1) (src 2)] = true := by decide

/-- R104, R127, R265, R319, R328, R329: the MX slot. -/
theorem test_refuses_mx : allRefused
    [.mma 0 0 2 0 0 0 0 0, .mma 0 6 5 0 0 0 0 0, .mma 0 9 9 0 0 0 0 0, .mma 0 2 2 6 0 0 0 0, .mma 0 7 7 0 0 0 1 0,
     .mzero 0 6, .mdrain 0 5 0 0, .mdrain 0 0 6 0, .mdrain 0 0 0 2, .lend 0 2, .recallBank 0 4] = true := by decide

/-- R266, R267, R339, R389, R413 to R420: the UP, PK, SO and XS slots; R351: rep. -/
theorem test_refuses_up_pk_so_xs_ctl : allRefused
    [.unpk 0 5 0 1 (src 0) 0 true 0, .unpk 0 0 3 1 (src 0) 0 true 0, .unpk 0 0 0 1 (src 0) 1 false 0,
     .unpk 0 4 0 1 (src 0) 0 false 0, .pack 0 0 0 1 (src 0) 0 true 4, .pack 0 0 1 1 (src 0) 0 true 2,
     .unpki 0 4 0 1 (src 0) 0, .unpki 0 5 2 1 (src 0) 0, .packi 0 0 1 1 (src 0) 0, .packi 0 0 0 1 (src 0) 2,
     .pscale 0 5 0 (src 0) 3 1, .pscale 0 0 0 (src 0) 3 4, .swr 0 (src 35) 0, .swrx 0 (held 32) 0 false, .swra 0 (src 63) 0 false,
     .sfill 0 (src 0) 0, .sfill 0 (held 33) 0, .xperm 0 1 (src 0) 8, .xperm 0 1 (src 0) 0x60, .xperm 0 1 (src 0) 0x80,
     .xbcast 0 1 (src 35) 0, .xget 0 1 (held 32) 0, .xred 0 3 2 1 (src 0), .xshift 0 1 (src 0) 8 false,
     .rep 33 1 false false false 0, .rep 1 0 false false false 0] = true := by decide

/-- Values at the ends of the same ranges are taken. -/
theorem test_takes_ends : allTaken
    [.fence 3 5, .sget 1 0x013, .sget 1 0x05F, .sset 1 0x008, .sset 1 0x010, .cmp 5 1 2 3, .bfx 1 2 0 63, .bfi 1 2 63 0,
     .ldg ⟨3, 1, 5, 3⟩ 1 2 0, .stg ⟨0, 2, 5, 0⟩ 1 2 0, .amog ⟨2, 3, 5, 0⟩ 10 1 2 3 0, .amof ⟨3, 3, 5, 0⟩ 9 1 2 3 4,
     .krun ⟨0, 3, 31⟩ 4095 true 1 2, .acmp 0 5 1 2 0 true, .atsr 0 1 5 2, .vadd 0 2 3 1 (src 34) (held 33) whole,
     .vrotr 0 1 1 (src 0) 127 whole, .vbcc 0 6 1 (src 0) 15 whole, .vtopk 0 5 30 (src 30) (src 34) (src 34) 63 true,
     .mma 0 8 8 5 31 31 0 0, .mma 0 2 5 0 0 0 15 15, .mdrain 0 4 5 28, .unpk 0 4 0 1 (src 0) 0 true 7,
     .packi 0 0 0 1 (src 0) 1, .xperm 0 1 (src 0) 0x5F, .xshift 0 1 (src 0) 9 true, .rep 32 63 true true true 15,
     .rep 0 1 false false false 0] = true := by decide

/-! ## Decoding -/

/-- R197, R198, R261: system instructions and fences. -/
theorem test_decode_system :
    decodeScp 0x0100_0000_0000_0042 = .ok (.trap 0x42) ∧ decodeScp 0x0300_0000_0000_0000 = .ok .tfence
    ∧ decodeScp 0x0400_0000_3800_0000 = .ok (.fence 3 4) ∧ decodeScp 0x0600_0000_0000_0000 = .ok .susp
    ∧ decodeScp 0x0700_0000_0000_0000 = .ok .tend ∧ decodeScp 0x0814_0000_0000_0011 = .ok (.sget 5 0x11)
    ∧ decodeScp 0x0A00_A2C0_0000_0003 = .ok (.wset 3 10 11) ∧ decodeScp 0x0B00_0000_0000_0000 = .ok .gbar :=
  ⟨rfl, rfl, rfl, rfl, rfl, rfl, rfl, rfl⟩

/-- R304, R356, R360, R362, R382, R310, R385 to R387: stream operations, launches, deals. -/
theorem test_decode_streams :
    decodeScp 0x421C_9000_0600_0100 = .ok (.ldf ⟨0, 0, 3, 0⟩ 7 9 256)
    ∧ decodeScp 0x5000_9280_2460_0005 = .ok (.scopy ⟨2, 1, 3⟩ 5 9 10)
    ∧ decodeScp 0x5100_9000_00E0_0005 = .ok (.sfence ⟨0, 0, 7⟩ 5 9)
    ∧ decodeScp 0x5200_8000_0000_0000 = .ok (.swait ⟨0, 0, 0⟩ 8 0)
    ∧ decodeScp 0x6010_5000_0000_0000 = .ok (.launch 4 5) ∧ decodeScp 0x6100_0000_0000_0000 = .ok .trig
    ∧ decodeScp 0x6210_0000_0000_0000 = .ok (.twait 4) ∧ decodeScp 0x6210_5000_8000_0000 = .ok (.twaitId 4 5)
    ∧ decodeScp 0x7010_5000_0000_0000 = .ok (.deal 4 5) ∧ decodeScp 0x7110_5000_0000_0000 = .ok (.undeal 4 5) :=
  ⟨rfl, rfl, rfl, rfl, rfl, rfl, rfl, rfl, rfl, rfl⟩

/-- R262 to R267: words of the kernel slots. -/
theorem test_decode_slots :
    decodeSlot encodeSa candidateSa 0x2800_0020_0003 = .ok (some (.lcset 0 0 true 3))
    ∧ decodeSlot encodeSo candidateSo 0x10_0890_0000 = .ok (some (.sfill 0 (src 34) 2))
    ∧ decodeSlot encodeMx candidateMx 0x1C00_0000_0003 = .ok (some (.lend 0 3))
    ∧ decodeSlot encodeMx candidateMx 0x2000_0000_0003 = .ok (some (.recallBank 0 3)) := ⟨rfl, rfl, rfl, rfl⟩

/-- R257: words that no instruction encodes: a reserved MAJ, a reserved special register, a register field of a form
that has none, a reserved condition, a scope past 5. -/
theorem test_decode_refuses :
    (decodeScp 0x0C00_0000_0000_0000).toOption = none ∧ (decodeScp 0x0814_0000_0000_0014).toOption = none
    ∧ (decodeScp 0x0704_0000_0000_0000).toOption = none ∧ (decodeScp 0x0400_0000_3C00_0000).toOption = none :=
  ⟨rfl, rfl, rfl, rfl⟩

/-! ## States for the witnesses -/

/-- A reset machine on which SP 0 runs a strand of context 0 at pc 0x1000, with changes. -/
def strand (f : Sp → Sp) : State :=
  State.reset.modSp 0 fun p => f { p with run := .running, r := { p.r with pc := 0x1000 } }

def plain : State := strand id

/-- The strand with s1 and s2 set. -/
def strandOf (x y : W64) : State := strand fun p => { p with r := (p.r.put 1 x).put 2 y }

/-- A 64 KiB page at virtual address `base`, in context 0, of frame 0x20000 with the attributes `attr` (R202): 0x193 is
NORMAL, RC, writable, executable; 0x183 is SO; 0x197 REMOTE. -/
def page (base attr : Nat) : TlbEntry :=
  ⟨0, base, 0x1_0000, BitVec.ofNat 64 (0x2_0000 + attr), if attr / 4 % 4 = 1 then some (0x800, 0) else none⟩

/-- The strand with s1, s2 and one page from virtual address 0x10000. -/
def paged (x y : W64) (attr : Nat) : State :=
  strand fun p => { p with r := (p.r.put 1 x).put 2 y, tlb := [page 0x1_0000 attr] }

def leaf (attr : Nat) : Leaf := (page 0x1_0000 attr).leaf

/-- A launch record with grain, ID and priority. -/
def rec1 (grain id : W32) : LRec := { parseLRec [] with grain := grain, launchId := id }

def launch1 (id : W32) (ph : LPhase) : Launch :=
  { ctx := 0, r := rec1 1 id, depth := 1, src := .queue none, parent := none, pusher := none, memo := [], phase := ph, cause := 0, binds := [], tasks := []
    order := 0, doneTiles := 0, badTask := false, trigTiles := 0, lastDisp := 0, lastDie := 0, gone := false
    stopped := false, wait := none }

def seat1 (sp : Option SpId) : Seat := { newSeat (launch1 1 .running) 0 0 with sp := sp, status := .running }

def gang1 (qs : List Seat) : Gang :=
  { live := true, launch := 0, ctx := 0, die := 0, tindex := 0, x := 0, y := 0, z := 0, w := 0, args := 0, gen := 0, seats := qs
    resume := false, saveAt := none, kept := false }

/-- A strand on seat 0 of a gang with the given seats. -/
def seated (f : Sp → Sp) (qs : List Seat) : State :=
  { strand (fun p => f { p with gang := some 0 }) with gangs := [gang1 qs], launches := [launch1 1 .running] }

theorem plain_released (scope : BitVec 3) : Released plain scope := ⟨rfl, rfl, fun _ => rfl, by
  have h : plain.me.r.win.toList.find? (fun w => w.err && winInScope plain w scope) = none := by
    simp [plain, strand, State.me, State.sp, State.modSp, State.setSp, State.reset, Sp.init, ScpRegs.init, Window.init]
  simp [windowErr, h]⟩

/-! ## Witnesses: SCP -/

theorem witness_Division : (strandOf 7 0).sreg 2 = 0 ∧ (strandOf 7 2).sreg 2 ≠ 0
    ∧ (strandOf 0x8000_0000_0000_0000 0xFFFF_FFFF_FFFF_FFFF).sreg 1 = 0x8000_0000_0000_0000
    ∧ (strandOf 0x8000_0000_0000_0000 0xFFFF_FFFF_FFFF_FFFF).sreg 2 = 0xFFFF_FFFF_FFFF_FFFF := by decide

theorem witness_LogicShiftsImmediates : (0 : BitVec 6).toNat + ((63 : BitVec 6).toNat + 1) ≤ 64
    ∧ (63 : BitVec 6).toNat + ((0 : BitVec 6).toNat + 1) ≤ 64 := by decide

theorem witness_Branches :
    (plain.me.r.pc + (-512 : BitVec 20).signExtend 64 * 8) &&& 0xFF00_0000_0000_0007 = 0
    ∧ (5 : BitVec 4).toNat < 6 ∧ condHolds 5 ((strandOf 7 7).sreg 1) ((strandOf 7 7).sreg 2) = true
    ∧ condHolds 4 ((strandOf 7 7).sreg 1) ((strandOf 7 7).sreg 2) = false
    ∧ (strandOf 0x00FF_FFFF_FFFF_FFF8 0).sreg 1 &&& 0xFF00_0000_0000_0007 = 0 := by decide

theorem witness_StrandFaults_illegal :
    6 ≤ (6 : BitVec 4).toNat ∧ 64 < (63 : BitVec 6).toNat + ((1 : BitVec 6).toNat + 1) ∧ sgetOk 0x014 = false
    ∧ ssetOk 0x007 = false ∧ (plain.me.r.pc + (-513 : BitVec 20).signExtend 64 * 8) &&& 0xFF00_0000_0000_0007 ≠ 0
    ∧ (strandOf 4 0).sreg 1 &&& 0xFF00_0000_0000_0007 ≠ 0 := by decide

theorem witness_StrandFaults_words :
    decodeScp 0xFF00_0000_0000_0000 = .error .reservedOpcode ∧ decodeScp 0x180C_4140_0000_0000 = .ok (.xor 3 4 5)
    ∧ (decodeEqx 0x0000_700B).toOption = none ∧ rvDecode 0x0000_700B = none
    ∧ (decodeEqx 0x00C5_850B).toOption.isSome = true ∧ (rvDecode 0x0073_02B3).isSome = true := ⟨rfl, rfl, rfl, rfl, rfl, rfl⟩

def inHandler : State := strand fun p => { p with r := { p.r with trapCause := 0x400, trapPc := 0x2000 } }
def withHandler : State := strand fun p => { p with r := { p.r with trapPc := 8, aflags := 0x40, afenable := 0x40 } }

theorem witness_StrandFaults_traps :
    inHandler.me.sto.records = [] ∧ inHandler.me.r.trapCause.getLsbD 10 = true
    ∧ withHandler.me.sto.records = [] ∧ withHandler.me.r.trapCause.getLsbD 10 = false
    ∧ withHandler.me.r.trapPc &&& 0x00FF_FFFF_FFFF_FFF8 ≠ 0 ∧ plain.me.r.trapPc &&& 0x00FF_FFFF_FFFF_FFF8 = 0
    ∧ withHandler.me.r.aflags &&& withHandler.me.r.afenable ≠ 0 ∧ plain.me.r.aflags &&& plain.me.r.afenable = 0 := by
  decide

/-- A strand whose window 3 has the given error and open writes. -/
def windowed (err : Bool) (outst : BitVec 10) : State :=
  strand fun p => { p with
    r := { p.r.put 2 0x80 with win := p.r.win.set 3 { Window.init with err := err, ecause := cKeyRange, outst := outst } } }

theorem witness_SpecialRegisters :
    ((windowed false 0).sreg 2 &&& 0x7F = 0 ∧ (windowed false 0).me.r.win[(3 : BitVec 4).toFin].outst = 0
      ∧ (windowed false 0).me.r.win[(3 : BitVec 4).toFin].err = false)
    ∧ (strandOf 0 0x7F).sreg 2 &&& 0x7F ≠ 0
    ∧ ((windowed false 1).sreg 2 &&& 0x7F = 0 ∧ (windowed false 1).me.r.win[(3 : BitVec 4).toFin].outst ≠ 0)
    ∧ ((windowed true 0).sreg 2 &&& 0x7F = 0 ∧ (windowed true 0).me.r.win[(3 : BitVec 4).toFin].err = true) := by decide

theorem witness_Fences_done : plain.me.sto.records = [] ∧ (5 : BitVec 3).toNat < 6 ∧ (3 : BitVec 2) ≠ 0
    ∧ remoteOpen plain = false ∧ windowErr plain 5 = none := by decide

/-- A request of `typ` from accelerator 5, of `n` bytes at `a` under `key`. -/
def hdr (typ : BitVec 6) (key : W32) (n : BitVec 8) (a : BitVec 57) : SahatHdr :=
  { typ := typ, aop := 0, dst := 0, src := 5, stn := 3, tag := 9, slack := 0, ovd := false, ord := false, res0 := 0, key := key
    len := n - 1, cause := 0, res1 := 0, addr := a, res2 := 0, ssid := 0, seq := 1 }

/-- The tag 9 of SSID 0 is open: a request of 8 bytes by `w`. -/
def opened (typ : BitVec 6) (w : Issuer) (s : State) : State :=
  s.modDev fun d => { d with txns := [⟨hdr typ 0 8 0, 3, 0, 4000000, w, 0⟩] }

def held1 : State := opened 5 (.window 0 3 none) (windowed false 1)

theorem witness_Fences_held :
    (held1.me.sto.records = [] ∧ 4 ≤ (4 : BitVec 3).toNat ∧ remoteOpen held1 = true)
    ∧ ¬ (4 ≤ (5 : BitVec 3).toNat ∧ remoteOpen (windowed true 0) = true)
    ∧ windowErr (windowed true 0) 5 = some cKeyRange ∧ windowErr (windowed true 0) 3 = some cKeyRange := by decide

theorem witness_SuspensionPoints_ckpt :
    OnSeat (seated id [seat1 (some 0)]) 0 0 (gang1 [seat1 (some 0)]) (seat1 (some 0))
    ∧ chansIdle (seated id [seat1 (some 0)]).me.str ((seated id [seat1 (some 0)]).myTable 0).chmask = true
    ∧ reqPending (seated id [seat1 (some 0)]) 0 = false ∧ (seated id [seat1 (some 0)]).me.sto.records = []
    ∧ weakTxns (seated id [seat1 (some 0)]) 0 = [] :=
  ⟨⟨rfl, rfl, rfl, rfl⟩, rfl, rfl, rfl, rfl⟩

/-- The strand with a pre-emption of its context asked for. -/
def preempted : State := plain.modCtx 0 fun c => { c with preempt := some ⟨0, false⟩ }

theorem witness_SuspensionPoints_stop :
    (chansIdle preempted.me.str (preempted.myTable 0).chmask = true ∧ reqPending preempted preempted.cur = true)
    ∧ (plain.me.settled = true ∧ undelivered plain.me.str 0xFFFF = none)
    ∧ (strand fun p => { p with str := p.str.take 31 }).me.settled = false := by decide

theorem witness_SuspensionPoints_release : Released plain 3 := plain_released 3

theorem witness_TaskEnd_park :
    let s := seated id [seat1 (some 0), seat1 (some 1)]
    OnSeat s 0 0 (gang1 [seat1 (some 0), seat1 (some 1)]) (seat1 (some 0)) ∧ s.me.quiet = true ∧ Released (coverTags s s.cur (BitVec.allOnes 32)) 5
    ∧ undelivered s.me.str 0xFFFF = none ∧ seatParked s (seat1 (some 1)) = false :=
  ⟨⟨rfl, rfl, rfl, rfl⟩, by decide, ⟨rfl, rfl, fun _ => by decide, by decide⟩, by decide, by decide⟩

theorem witness_TaskEnd_last :
    let s := (seated id [seat1 (some 0), seat1 (some 1)]).modSp 1 fun p => { p with run := .parked }
    OnSeat s 0 0 (gang1 [seat1 (some 0), seat1 (some 1)]) (seat1 (some 0)) ∧ s.me.quiet = true ∧ Released (coverTags s s.cur (BitVec.allOnes 32)) 5
    ∧ seatParked s (seat1 (some 1)) = true :=
  ⟨⟨rfl, rfl, rfl, rfl⟩, by decide, ⟨rfl, rfl, fun _ => by decide, by decide⟩, by decide⟩

/-- Two seats, the other one with the given count, on SP 1. -/
def barrier (n : W32) : State := seated id [seat1 (some 0), { seat1 (some 1) with cnt := n }]

def allArrived (g : Gang) (n : Nat) : Bool := g.seats.zipIdx.all fun x => x.2 == n || x.1.cnt = g.gen + 1

theorem witness_GangBarrier_wait :
    OnSeat (barrier 0) 0 0 (gang1 [seat1 (some 0), seat1 (some 1)]) (seat1 (some 0)) ∧ Released (barrier 0) 1
    ∧ allArrived (gang1 [seat1 (some 0), seat1 (some 1)]) 0 = false
    ∧ seatParked (barrier 0) (seat1 (some 1)) = false ∧ reqPending (barrier 0) 0 = false :=
  ⟨⟨rfl, rfl, rfl, rfl⟩, ⟨rfl, rfl, fun h => absurd h (by decide), by decide⟩, by decide, by decide, by decide⟩

theorem witness_GangBarrier_last :
    OnSeat (barrier 1) 0 0 (gang1 [seat1 (some 0), { seat1 (some 1) with cnt := 1 }]) (seat1 (some 0))
    ∧ Released (barrier 1) 1 ∧ allArrived (gang1 [seat1 (some 0), { seat1 (some 1) with cnt := 1 }]) 0 = true
    ∧ ([seat1 (some 0), { seat1 (some 1) with cnt := 1 }].filterMap Seat.sp).Nodup :=
  ⟨⟨rfl, rfl, rfl, rfl⟩, ⟨rfl, rfl, fun h => absurd h (by decide), by decide⟩, by decide, by decide⟩

theorem witness_GangBarrier_behind :
    let s := { barrier 1 with gangs := [{ gang1 [seat1 (some 0), seat1 (some 1)] with gen := 1 }] }
    OnSeat s 0 0 { gang1 [seat1 (some 0), seat1 (some 1)] with gen := 1 } (seat1 (some 0)) ∧ Released s 1
    ∧ (seat1 (some 0)).cnt.toNat < (1 : W32).toNat :=
  ⟨⟨rfl, rfl, rfl, rfl⟩, ⟨rfl, rfl, fun h => absurd h (by decide), by decide⟩, by decide⟩

theorem witness_TriggersAndServices_trig :
    OnSeat (seated id [seat1 (some 0)]) 0 0 (gang1 [seat1 (some 0)]) (seat1 (some 0)) ∧ (seat1 (some 0)).trig = false
    ∧ Released (seated id [seat1 (some 0)]) 3
    ∧ OnSeat (seated id [{ seat1 (some 0) with trig := true }]) 0 0 (gang1 [{ seat1 (some 0) with trig := true }])
        { seat1 (some 0) with trig := true } :=
  ⟨⟨rfl, rfl, rfl, rfl⟩, rfl, ⟨rfl, rfl, fun h => absurd h (by decide), by decide⟩, ⟨rfl, rfl, rfl, rfl⟩⟩

/-- The strand awaits launch 2 by its ID in s1; that launch is as `ph` says. -/
def awaits (ph : LPhase) : State :=
  { seated (fun p => { p with r := p.r.put 1 2 }) [seat1 (some 0)] with launches := [launch1 1 .running, launch1 2 ph] }

theorem witness_TriggersAndServices_twait :
    (plain.earlyPreds.all (isTriggered plain) = true)
    ∧ (plain.me.pend = .none ∧ (plain.sreg 1).setWidth 32 = (0 : W32))
    ∧ liveLaunch (seated id [seat1 (some 0)]) 0 2 = none
    ∧ ((awaits .failed).me.pend = .none ∧ ((awaits .failed).sreg 1).setWidth 32 = (2 : W32)
      ∧ liveLaunch (awaits .failed) (awaits .failed).myCtx 2 = some 1 ∧ launchFinal (awaits .failed) 1 = true) := by decide

theorem witness_TriggersAndServices_svc : Released plain 3 ∧ (0xFFFFF : BitVec 20) ≠ 0 ∧ (2 : BitVec 20) ≠ 1 :=
  ⟨plain_released 3, by decide, by decide⟩

/-! ## Witnesses: memory -/

theorem leaf_of (x y : W64) (va : Nat) (u : Use) (ag : Agent) (attr : Nat)
    (h : (translate (paged x y attr) (.sp 0) 0 va u ag).toOption = some (leaf attr)) :
    translate (paged x y attr) (.sp 0) 0 va u ag = .ok (leaf attr) := by
  revert h; cases translate (paged x y attr) (.sp 0) 0 va u ag <;> intro h <;> simp_all [Except.toOption]

theorem witness_Loads_local :
    let s := paged 0x1_FFF8 0 0x193
    WellFormed (.ldg ⟨3, 1, 5, 3⟩ 2 1 0) = true ∧ (s.sreg 1 + (0 : BitVec 20).signExtend 64).toNat % 8 = 0
    ∧ s.me.pend = .none ∧ s.me.sto.records = [] ∧ s.me.sto.weak = [] ∧ LocalPage s 0x1_FFF8 8 .read .scp (leaf 0x193) :=
  ⟨by decide, by decide, rfl, rfl, rfl, ⟨leaf_of _ _ _ _ _ _ (by decide), .inl (by decide), by decide⟩⟩

/-- A store of s2 to 0x10000 in flight. -/
def storing : State :=
  strand fun p => { p with
    r := p.r.put 1 0x1_0000, tlb := [page 0x1_0000 0x193]
    sto := { p.sto with weak := [⟨none, 0x2_0000, false, 0x1_0000, 5, 3, 1⟩] } }

theorem witness_Loads_forwarded :
    Memory.wf storing.mem = true ∧ storing.me.sto.records = [] ∧ storing.me.pend = .none
    ∧ storing.me.sto.weak = [⟨none, (leaf 0x193).pa 0x1_0000, false, 0x1_0000, 5, 3, 1⟩] ∧ (leaf 0x193).ord ≠ 2
    ∧ (translate storing (.sp 0) 0 0x1_0000 .read .scp).toOption = some (leaf 0x193) := by decide

/-- An answer of eight bytes for a read of a REMOTE page. -/
def answered : State :=
  strand fun p => { p with
    r := p.r.put 1 0x1_0000, tlb := [page 0x1_0000 0x197], pend := .remote 7 (some (.data [1, 2, 3, 4, 5, 6, 7, 8])) [] }

theorem witness_Loads_remote :
    answered.me.pend = .remote 7 (some (.data [1, 2, 3, 4, 5, 6, 7, 8])) [] ∧ answered.me.sto.records = []
    ∧ (translate answered (.sp 0) 0 0x1_0000 .read .scp).toOption = some (leaf 0x197) ∧ (leaf 0x197).kind = 1 := by decide

/-- A strand with 8 MiB of SRF, all of it full if `f`, at F address s1; window 2 is valid. -/
def onSrf (a : W64) (f : Bool) : State :=
  strand fun p => { p with
    r := { p.r.put 1 a with win := p.r.win.set 2 { Window.init with valid := true } }
    alloc := 0x80_0000, fe := if f then BitVec.allOnes 65536 else 0 }

theorem witness_SrfAccesses_own :
    let a : W64 := 0x7F_FFF8
    WellFormed (.ldf ⟨3, 1, 5, 0⟩ 2 1 0) = true ∧ WellFormed (.stf ⟨3, 2, 5, 0⟩ 2 1 0) = true
    ∧ WellFormed (.amof ⟨3, 3, 5, 0⟩ 9 2 1 3 4) = true
    ∧ ((onSrf a true).sreg 1 + (0 : BitVec 20).signExtend 64).toNat = 0x7F_FFF8
    ∧ (onSrf a true).me.sto.records.length ≠ 16 ∧ (onSrf a true).fDecode 0 0x7F_FFF8 = .srf 0 0x7F_FFF8
    ∧ ((onSrf a true).sp 0).full 0x7F_FFF8 = true ∧ ((onSrf a false).sp 0).full 0x7F_FFF8 = false
    ∧ (onSrf a false).me.pend = .none ∧ mapWf (0 : Line) 0 ((onSrf a true).sp 0).srf = true := by
  decide +kernel

theorem witness_SrfAccesses_window :
    let s := (onSrf 0x1200_0000 true).modSp 0 fun p => { p with pend := .remote 1 (some (.data (leBytes 8 9))) [] }
    s.fDecode 0 0x1200_0000 = .window 2 0 ∧ (s.sreg 1).toNat = 0x1200_0000
    ∧ s.me.pend = .remote 1 (some (.data (leBytes 8 9))) [] := by decide

theorem witness_SrfAccesses_release : Released plain 3 := plain_released 3

theorem witness_Stores_performed :
    Memory.wf (paged 0x1_0000 5 0x183).mem = true ∧ WellFormed (.stg ⟨3, 0, 0, 0⟩ 1 2 0) = true ∧ WellFormed (.stg ⟨0, 2, 3, 0⟩ 1 2 0) = true
    ∧ ((paged 0x1_0000 5 0x183).sreg 1 + (0 : BitVec 20).signExtend 64).toNat = 0x1_0000
    ∧ (translate (paged 0x1_0000 5 0x183) (.sp 0) 0 0x1_0000 .write .scpStg8).toOption = some (leaf 0x183)
    ∧ (leaf 0x183).kind = 0 ∧ (leaf 0x183).ord = 0 := by decide

theorem witness_Stores_weak :
    (paged 0x1_0000 5 0x193).me.sto.records = [] ∧ storeCount (paged 0x1_0000 5 0x193) 0 < 16
    ∧ (translate (paged 0x1_0000 5 0x193) (.sp 0) 0 0x1_0000 .write .scpStg8).toOption = some (leaf 0x193)
    ∧ (leaf 0x193).kind = 0 ∧ (leaf 0x193).ord ≠ 0 := by decide

theorem witness_Stores_record : lookup (strandOf 0x100_0000_0000_0000 0) (.sp 0) 0 0x100_0000_0000_0000 = .error cVaRange
    ∧ lookup plain (.sp 0) 0 0 = .error cPageNotPresent ∧ storeCount plain 0 < 16 := ⟨rfl, rfl, by decide⟩

theorem witness_Atomics :
    WellFormed (.amog ⟨2, 3, 5, 0⟩ 10 2 1 3 0) = true
    ∧ (translate (paged 0x1_0000 5 0x193) (.sp 0) 0 0x1_0000 .amo .scp).toOption = some (leaf 0x193)
    ∧ (2 ^ 32 - 1 : Nat) < 2 ^ 32 ∧ (2 ^ 64 - 1 : Nat) < 2 ^ 64 := by decide

theorem witness_AccessFaults :
    (strandOf 1 0).me.sto.records = [] ∧ (strandOf 1 0).me.pend = .none ∧ ((strandOf 1 0).sreg 1).toNat % 2 ≠ 0
    ∧ translate plain (.sp 0) 0 0 .read .scp = .error cPageNotPresent
    ∧ translate plain (.sp 0) 0 0 .amo .scp = .error cPageNotPresent
    ∧ 2 ^ 32 ≤ ((strandOf 0x1_0000_0000 0).sreg 1).toNat ∧ plain.fDecode 0 0 = .hole
    ∧ plain.fDecode 0 0xFFFF_FFF8 = .hole :=
  ⟨rfl, rfl, by decide, rfl, rfl, by decide, by decide, by decide⟩

/-! ## Witnesses: streams, launches, deals -/

/-- A strand with page 0x10000, table base 0x10000 with one entry, s1 and s2, and 32 KiB of SRF. -/
def streaming (x y : W64) : State :=
  strand fun p => { p with
    r := { (p.r.put 1 x).put 2 y with ttbase := 0x1_0000 }, alloc := 0x8000, tlb := [page 0x1_0000 0x193] }

theorem witness_StreamOps_scopy :
    (streaming 0 0).me.str.busy 31 = false ∧ (streaming 0 0).me.sto.records = [] ∧ (streaming 0 0).me.pend = .none
    ∧ templateIn (streaming 0 0).me.r.ttbase 0 = true ∧ templateAddr (streaming 0 0).me.r.ttbase 0 = 0x1_0000
    ∧ (translate (streaming 0 0) (.sp 0) 0 0x1_0000 .read .scp).toOption = some (leaf 0x193)
    ∧ poisoned (streaming 0 0).dev.poison ((leaf 0x193).pa 0x1_0000) 64 = false := by decide

theorem witness_StreamOps_recorded :
    WellFormed (.sfence ⟨0, 0, 7⟩ 0xFFFF 1) = true ∧ undelivered plain.me.str 0xFFFF = none
    ∧ WellFormed (.kload ⟨0, 0, 7⟩ 4095 0 1 2) = true ∧ ((streaming 0x1_0F80 1).sreg 1).toNat % 64 = 0
    ∧ (streaming 0x1_0F80 1).sreg 2 ≠ 0 ∧ (4095 : BitVec 12).toNat + ((streaming 0x1_0F80 1).sreg 2).toNat ≤ 4096
    ∧ WellFormed (.krun ⟨0, 0, 7⟩ 4095 true 0 1) = true ∧ ((streaming 0x1_0F80 1).sreg 1).toNat % 4096 ≤ 3968
    ∧ (translate (streaming 0x1_0F80 1) (.sp 0) 0 0x1_0F80 .read .scp).toOption = some (leaf 0x193) := by decide

/-- The block of a kernel of one bundle. -/
theorem witness_StreamOps_block :
    let s : State := { streaming 0x1_0F80 1 with mem := [(0x2_0FE0, 1)] }
    kblockOk s.me.alloc 4095 (parseKBlock (s.physRead ((leaf 0x193).pa (s.sreg 1).toNat) 128)) = true := by decide

/-- Tag 31 pending, or complete with a cause; channel 0 with write pointer 1 and an undelivered failure. -/
def tagged (t : TagState) : State :=
  strand fun p => { p with
    r := p.r.put 1 0x8000_0000
    str := { p.str with
      tags := p.str.tags.set 31 t, chans := p.str.chans.set 0 { Channel.init with wp := 1, und := [(4, cKeyRange)] } } }

theorem witness_StreamOps_swait :
    (plain.me.str.clear 0xFFFF_FFFF = true ∧ tagCause plain.me.str 0xFFFF_FFFF = none)
    ∧ (tagged ⟨true, none⟩).me.str.clear 0x8000_0000 = false
    ∧ ((tagged ⟨false, some (4, cKeyRange)⟩).me.str.clear 0x8000_0000 = true
      ∧ tagCause (tagged ⟨false, some (4, cKeyRange)⟩).me.str 0x8000_0000 = some (4, cKeyRange))
    ∧ undelivered (tagged ⟨true, none⟩).me.str 1 = some (4, cKeyRange)
    ∧ ((0 : BitVec 48) - 0).toNat < 2 ^ 47 ∧ plain.me.str.chans[chOf 0].und = [] ∧ ¬ ((0 : BitVec 48) - 1).toNat < 2 ^ 47
    := by decide

/-- A context 0 with code object 1, whose text is 8 bytes at 0. -/
def coded (s : State) : State :=
  s.modCtx 0 fun c => { c with alive := true, codes := [⟨1, [⟨.text, 0, 8⟩], [], []⟩] }

/-- At frame 0x20000 a record of one task: X, Y, Z, W, GRAIN, LAUNCHID and CODE 1, ENTRY 0, SRFB 128. -/
def recordBytes (id : Byte) : List Host.Cell :=
  [(0x2_0008, 1), (0x2_000A, 1), (0x2_000C, 1), (0x2_000E, 1), (0x2_0010, 1), (0x2_0014, id), (0x2_0018, 1),
   (0x2_0070, 128)]

/-- A strand at nesting depth `n` that pushes the record at 0x10000, whose ID is `id`. -/
def pushing (n : Nat) (id : Byte) : State :=
  { coded (seated (fun p => { p with r := p.r.put 1 0x1_0000, tlb := [page 0x1_0000 0x193] }) [seat1 (some 0)]) with
    mem := recordBytes id, launches := [{ launch1 7 .running with depth := n }] }

def pushed (s : State) : LRec := parseLRec (s.physRead ((leaf 0x193).pa 0x1_0000) 128)

theorem witness_LaunchPushed :
    (strandOf 0x1_0040 0).sreg 1 &&& 0x7F ≠ 0
    ∧ (translate (pushing 15 1) (.sp 0) 0 0x1_0000 .read .scp).toOption = some (leaf 0x193)
    ∧ lrecBad { pushing 15 1 with mem := [] } 0 (pushed { pushing 15 1 with mem := [] }) = true
    ∧ (lrecBad (pushing 15 1) 0 (pushed (pushing 15 1)) = false ∧ kimBad (pushing 15 1) 0 (pushed (pushing 15 1)) = false
      ∧ (pushing 15 1).depth + 1 ≤ 16 ∧ liveLaunch (pushing 15 1) 0 (pushed (pushing 15 1)).launchId = none
      ∧ ((pushing 15 1).die 0).pool.length < 4096)
    ∧ 16 < (pushing 16 1).depth + 1
    ∧ (lrecBad (pushing 15 7) 0 (pushed (pushing 15 7)) = false
      ∧ (liveLaunch (pushing 15 7) 0 (pushed (pushing 15 7)).launchId).isSome = true) := by decide +kernel

theorem witness_LaunchPushed_full :
    let s := (pushing 15 1).modDie 0 fun d => { d with pool := List.replicate 4096 0 }
    4096 ≤ (s.die (dieOf s.cur)).pool.length := by decide +kernel

/-- At frame 0x20000 a descriptor with T, K, E 1, ROWB, SSTR and OSTR 64, DSIG 16. -/
def descBytes : List Host.Cell :=
  [(0x2_0000, 1), (0x2_0003, 1), (0x2_0004, 1), (0x2_0008, 64), (0x2_0018, 64), (0x2_001C, 64), (0x2_0050, 16)]

def dealing (n : Nat) : State :=
  { (paged 0x1_0000 0 0x193).modDie 0 fun d => { d with dealer := ⟨List.replicate n ⟨0, none, false, parseDesc [], 0, 0, false⟩, none, []⟩ }
    with mem := descBytes }

theorem witness_DealQueued :
    let x := parseDesc ((dealing 15).physRead ((leaf 0x193).pa 0x1_0000) 128)
    x.ok true = true ∧ x.ok false = true ∧ ((dealing 15).die 0).dealer.queue.length < 16
    ∧ 16 ≤ ((dealing 16).die 0).dealer.queue.length
    ∧ (translate (dealing 15) (.sp 0) 0 0x1_0000 .read .scp).toOption = some (leaf 0x193)
    ∧ ((strandOf 0x1_0040 0).sreg 1).toNat % 128 ≠ 0 := by decide +kernel

theorem witness_DealQueued_release : Released (dealing 15) 3 :=
  ⟨rfl, rfl, fun h => absurd h (by decide), by decide +kernel⟩

/-! ## Witnesses: kernel slots -/

def krunOp : StreamOp := ⟨0, some 0, 0, 0, 0, .krun 4 true ⟨Vector.replicate 8 0, Vector.replicate 8 KBind.init, 8⟩⟩

/-- A kernel of 8 bundles from bundle 4, at bundle 6. -/
def run1 : KRun :=
  { op := krunOp, entry := 4, blk := ⟨Vector.replicate 8 0, Vector.replicate 8 KBind.init, 8⟩, kpc := 6, due := 0
    phase := .issuing, since := none, nits := none }

/-- The strand's kernel engine, idle but for the kernel, with changes. -/
def kern (f : KEngine → KEngine) : State := strand fun p => { p with ke := f { p.ke with run := some run1 } }

def cluster1 : KCluster := { KCluster.init with opmSt := KCluster.init.opmSt.set 31 .owned }

/-- p1 is true in cluster 3 only; slot 31 is OWNED everywhere. -/
def oneOn (e : KEngine) : KEngine := { e with cl := (Vector.replicate 8 cluster1).set 3 { cluster1 with p := 2 } }

/-- The same with slot 30 RELEASING everywhere. -/
def releasing (e : KEngine) : KEngine :=
  { oneOn e with cl := (oneOn e).cl.map fun k => { k with opmSt := k.opmSt.set 30 .releasing } }

/-- VecDone, KernelScalars, KernelExchange, KernelPacking: nothing in flight, with every vector register there (bank 3 not
lent), or with the last register of bank 2. -/
theorem witness_kernel_settled :
    (kern id).me.ke.Settled ∧ (kern id).me.ke.Has 31 ∧ (kern id).me.ke.HasSrc (src 31) ∧ (kern id).me.ke.HasSrc (src 34)
    ∧ (kern fun e => { e with lent := true }).me.ke.Has 23 ∧ (kern fun e => { e with lent := true }).me.ke.gone 24 = true :=
  ⟨⟨rfl, by decide, by decide, by decide, by decide⟩, rfl, fun _ => rfl, fun h => absurd h (by decide), rfl, rfl⟩

theorem witness_KernelScalars :
    (∀ c, (kern id).me.ke.on 0x10 c = false) ∧ ((kern oneOn).me.ke.on 1 3 = true ∧ ∀ b, b < 3 → (kern oneOn).me.ke.on 1 b = false)
    ∧ WellFormed (.lcset 0 31 false 255) = true ∧ (5 : BitVec 3).toNat < 6 := by decide +kernel

theorem witness_KernelFloat_Integer : WellFormed (.vcvt 0 0 6 3 31 (src 31) ⟨true, 7⟩) = true
    ∧ WellFormed (.vexp2 0 2 0 31 (held 0) whole) = true ∧ WellFormed (.vimul 0 6 true 31 (src 31) (src 0) whole) = true
    ∧ 3 ≤ (3 : BitVec 3).toNat ∧ (2 : BitVec 3).toNat < 3 := by decide

theorem witness_KernelMovesMasks : WellFormed (.vcmp 0 5 6 7 (src 31) (src 0) whole) = true
    ∧ WellFormed (.vmask 0 6 0 7 (src 31) (src 0)) = true ∧ WellFormed (.vmask 0 0 0 7 (src 7) (src 7)) = true
    ∧ WellFormed (.vrotr 0 1 31 (src 31) 127 whole) = true ∧ WellFormed (.vtrn 0 0 31 (src 31) true) = true := by decide

theorem witness_KernelReductions :
    WellFormed (.vtopk 0 5 30 (src 31) (src 0) (src 0) 63 false) = true
    ∧ WellFormed (.vtopk 0 0 30 (src 30) (src 1) (src 2) 0 true) = true ∧ (kern id).me.ke.Has (30 + 1)
    ∧ portsBad ([((kern id).me.ke.phys 30).val, ((kern id).me.ke.phys 31).val] ++ [((kern id).me.ke.phys 1).val]
        ++ [((kern id).me.ke.phys 2).val]) = false
    ∧ WellFormed (.vredr 0 5 6 31 (src 31) whole) = true := ⟨by decide, by decide, rfl, by decide +kernel, by decide⟩

theorem witness_KernelMatrix :
    WellFormed (.mma 1 8 8 3 31 31 0 0) = true ∧ WellFormed (.mdrain 0 0 5 28) = true ∧ (3 : BitVec 3).toNat < 4
    ∧ (∀ c, (kern oneOn).me.ke.on 1 c = true → (kern oneOn).me.ke.cl[c].opmSt[31] = .owned)
    ∧ (∀ c, (kern oneOn).me.ke.on 1 c = true → (kern oneOn).me.ke.cl[c].opmSt[0] = .free)
    ∧ ((∀ c, (kern releasing).me.ke.on 1 c = true → (kern releasing).me.ke.cl[c].opmSt[30] ≠ .owned)
      ∧ (kern releasing).me.ke.on 1 3 = true ∧ (kern releasing).me.ke.cl[(3 : Fin 8)].opmSt[30] = .releasing)
    ∧ (kern id).me.ke.lent = false ∧ (kern fun e => { e with lent := true }).me.ke.rep = none := by decide +kernel

/-- An mma of cluster 3 in the multiplier, reading slots 31 and 0. -/
def multiplying : State :=
  kern fun e => { e with
    cl := e.cl.set 3 { e.cl[3] with opmSt := e.cl[3].opmSt.set 31 .owned }, stepNo := 7
    infl := [⟨3, 9, .mma ⟨2, 2, 0, 31, 0, 0, 0, 0, 0, 0⟩⟩] }

theorem witness_KernelMatrix_orel :
    multiplying.me.ke.infl = [⟨3, 9, .mma ⟨2, 2, 0, 31, 0, 0, 0, 0, 0, 0⟩⟩] ∧ multiplying.me.ke.stepNo < 8
    ∧ ∀ x : ClId, multiplying.me.ke.cl[x].opmSt[31] = .owned ↔ x = 3 := by decide +kernel

/-- The repeat prefix with issues of acc3 and acc4 to come. -/
def repRun : RepRun := ⟨2, 2, 3, 0, 1, 0, 0, true, true, true, 1, 2, 9, 7, 1, 255⟩

theorem witness_KernelMatrix_recall :
    let e := (kern fun e => { e with lent := true, rep := some repRun }).me.ke
    e.lent = true ∧ e.rep = some repRun ∧ repRun.k ≤ 1 ∧ 1 < repRun.n ∧ 4 ≤ repRun.acc.toNat + 1 := by decide

theorem witness_KernelPacking : WellFormed (.unpk 0 4 0 31 (src 31) 15 true 7) = true
    ∧ WellFormed (.pack 0 0 2 31 (src 34) 0 false 1) = true ∧ WellFormed (.packi 0 0 0 31 (src 31) 1) = true
    ∧ WellFormed (.pscale 0 4 0 (src 31) 15 7) = true ∧ WellFormed (.unpki 0 5 1 31 (src 31) 1) = true := by decide

/-- 32 KiB of SRF bound to cursor 7, full if `full`; p1 is true in cluster 3 only, whose a0 is `a`. -/
def tiled (full valid : Bool) (alloc : Nat) (a : W32) : State :=
  strand fun p => { p with
    alloc := alloc, fe := if full then BitVec.allOnes 65536 else 0
    ke := { oneOn { p.ke with run := some run1 } with
      cl := (oneOn p.ke).cl.set 3 { (oneOn p.ke).cl[3] with a := KCluster.init.a.set 0 a, q := KCluster.init.q.set 7 0x3000 }
      bind := p.ke.bind.set 7 ⟨0, valid, 0⟩ } }

theorem witness_KernelTiles :
    let s := tiled true true 0x8000 0x3000
    s.me.ke.bind[7].valid = true ∧ (∀ c, s.me.ke.on 1 c = true → s.me.ke.cl[c].q[7].toNat < s.me.alloc)
    ∧ s.me.tileFull 0x3000 32 = true ∧ (tiled false true 0x8000 0x3000).me.tileFull 0x3000 32 = false
    ∧ s.me.ke.on 1 3 = true ∧ s.me.ke.cl[(3 : Fin 8)].a[0].toNat = 0x3000 ∧ 0x3000 % 0x1000 = 0 ∧ 0x3000 / 0x1000 % 8 = 3
    ∧ s.fDecode 0 0x3000 = .srf 0 0x3000 ∧ WellFormed (.swra 1 (src 31) 0 false) = true
    ∧ WellFormed (.sfill 1 (src 33) 7) = true := by decide +kernel

theorem witness_KernelTiles_faults :
    (∀ x, (tiled true true 0x3000 0).me.ke.on 1 x = true ↔ x = 3) ∧ (tiled true false 0x3000 0).me.ke.bind[7].valid = false
    ∧ (tiled true true 0x3000 0).me.alloc ≤ (tiled true true 0x3000 0).me.ke.cl[(3 : Fin 8)].q[7].toNat
    ∧ (tiled true true 0x3000 0x3800).me.ke.cl[(3 : Fin 8)].a[0].toNat % 0x1000 ≠ 0
    ∧ 0x80_0000 ≤ (tiled true true 0x3000 0x80_3000).me.ke.cl[(3 : Fin 8)].a[0].toNat
    ∧ (tiled true true 0x3000 0x4000).me.ke.cl[(3 : Fin 8)].a[0].toNat / 0x1000 % 8 ≠ 3
    ∧ (tiled true true 0x3000 0x3000).me.alloc ≤ 0x3000 := by decide +kernel

theorem witness_KernelExchange : WellFormed (.xperm 0 31 (src 31) 0x5F) = true
    ∧ WellFormed (.xshift 0 31 (src 33) 9 true) = true ∧ WellFormed (.xred 0 5 3 31 (src 31)) = true
    ∧ WellFormed (.xget 0 31 (src 31) 7) = true := by decide

theorem witness_KernelFaults :
    let busy := (kern fun e => { e with stepNo := 3, vbFree := 4, xsFree := 4, mulFree := 4, lent := true }).me.ke
    busy.infl = [] ∧ busy.stepNo < busy.vbFree ∧ busy.stepNo < busy.xsFree ∧ busy.stepNo < busy.mulFree ∧ busy.lent = true
    ∧ (kern id).me.ke.lent = false ∧ 4 ≤ (4 : BitVec 3).toNat
    ∧ ((kern oneOn).me.ke.on 1 3 = true ∧ (kern oneOn).me.ke.cl[(3 : Fin 8)].opmSt[31] = .owned
      ∧ (kern oneOn).me.ke.cl[(3 : Fin 8)].opmSt[0] ≠ .owned) := by decide +kernel

/-- A write of a5 of cluster 2 in flight, with KCHK as given. -/
def pending (chk : Bool) : State := kern fun e => { e with chk := chk, stepNo := 3, infl := [⟨2, 5, .areg 5 9⟩] }

theorem witness_KernelFaults_stall :
    (pending true).me.ke.infl = [⟨2, 5, .areg (5 : BitVec 5).toFin 9⟩] ∧ (5 : BitVec 5) ≠ 31 ∧ (pending true).me.ke.chk = true
    ∧ (pending true).me.ke.stepNo + 1 < 5 ∧ (pending false).me.ke.chk = false := by decide

/-! ## Witnesses: kernel control and steps -/

def inside (n : BitVec 12) : Bool := decide (run1.entry.toNat ≤ n.toNat ∧ n.toNat < run1.entry.toNat + run1.blk.extent.toNat)

theorem witness_KernelJumps :
    (kern id).me.ke.infl = [] ∧ (kern id).me.ke.run = some run1 ∧ inside 4 = true ∧ inside 11 = true ∧ inside 3 = false
    ∧ inside 12 = false ∧ inside (run1.kpc + 1) = true ∧ (kern oneOn).me.ke.cl[(3 : Fin 8)].p.getLsbD 1 = true
    ∧ (∀ c : ClId, (kern oneOn).me.ke.cl[c].p.getLsbD 2 = false)
    ∧ (kern fun e => { e with rstack := [7, 7, 7] }).me.ke.rstack.length < 4
    ∧ 4 ≤ (kern fun e => { e with rstack := [7, 7, 7, 7] }).me.ke.rstack.length ∧ inside 7 = true := by decide

theorem witness_KernelLoops :
    (kern id).me.ke.run = some run1 ∧ run1.nits = none ∧ inside 4 = true ∧ drainAsked (kern id) 0 = false
    ∧ 1 < (2 : BitVec 40).toNat ∧ (1 : BitVec 40).toNat ≤ 1 := by decide

/-- A kernel of two stages with iterations left, in a gang that is asked to leave its SP. -/
def draining : State :=
  (seated (fun p => { p with run := .stopped .susp, ke := { p.ke with run := some run1, nit := 5, nst := 2, nps := 2 } })
    [seat1 (some 0)]).modCtx 0 fun c => { c with preempt := some ⟨0, false⟩ }

theorem witness_KernelLoops_drain : drainAsked draining 0 = true ∧ draining.me.ke.nit ≠ 0 ∧ 1 < draining.me.ke.nst.toNat
    ∧ draining.me.ke.run = some run1 ∧ draining.me.ke.infl = [] := by decide

/-- Bundle 6 holds an mma of slots 31 and 31 into acc3 beside a repeat prefix. -/
def mmaOp : Instr := .mma 1 2 2 3 31 31 0 0
def repOp : Instr := .rep 1 1 false false false 0

def repBundle : BundleWord :=
  { BundleFields.zero with mx := (encodeMx mmaOp).getD 0, ctl := (encodeCtl (.rep 1 2 false false false 0)).getD 0 }.word

def repeating : State :=
  strand fun p => { p with kim := [(6, repBundle)], ke := oneOn { p.ke with run := some run1 } }

theorem witness_KernelRepeat :
    repeating.me.bundleAt 6 = .ok ⟨[mmaOp], some (.rep 1 2 false false false 0), 0, 0⟩
    ∧ mmaIn [mmaOp] = some (1, ⟨2, 2, 3, 31, 31, 0, 0⟩) ∧ repeating.me.ke.infl = [] := ⟨rfl, rfl, rfl⟩

theorem witness_KernelRepeat_slots :
    inside (run1.kpc + 1) = true ∧ (31 : BitVec 5).toNat + 0 < 32 ∧ (3 : BitVec 3).toNat + 0 < 4
    ∧ ∀ c, repeating.me.ke.on 1 c = true → repeating.me.ke.cl[c].opmSt[31] = .owned := by decide +kernel

theorem witness_KernelRepeat_turns : governed plain 0 = false ∧ reissueAlone plain 0 = false
    ∧ reissueAlone (kern fun e => { e with rep := some repRun, stepNo := 9, run := some { run1 with due := 12 } }) 0 = true := by
  decide +kernel

/-- Bundle 6 holds one `ali`; the power limit is `lim`. -/
def oneOp (lim : W32) : State :=
  strand fun p => { p with
    pwrlim := lim, kim := [(6, { BundleFields.zero with sa := (encodeSa (.ali 0 1)).getD 0, lit := 7 }.word)]
    ke := { p.ke with run := some run1, stepNo := 9 } }

theorem witness_BundleRuns :
    (stepStart (oneOp 64) 0).me.bundleAt 6 = .ok ⟨[.ali 0 1], none, 0, 7⟩
    ∧ (stepStart (oneOp 64) 0).me.ke.run = some run1 := ⟨rfl, rfl⟩

theorem witness_BundleRuns_free :
    let s2 := setLit (stepStart (oneOp 64) 0) 0 7
    let st := stageOf (.ali 0 1) s2 0
    run1.due ≤ s2.me.ke.stepNo ∧ s2.me.ke.rep = none ∧ st.allFaults s2.me.ke = [] ∧ st.lineHeld s2.me = false
    ∧ st.allowHeld s2.me = false ∧ st.claimHeld s2.me.ke = false ∧ s2.me.ke.win.sum + st.weight ≤ governorLimit s2 0
    ∧ (st.commit s2 0).isSome = true := by decide +kernel

theorem witness_KernelRepeat_governed : governed (oneOp 0) 0 = true := by decide +kernel

theorem witness_Landings : (5 : BitVec 3).toNat < 6 ∧ (kern id).me.ke.stepNo ≤ (kern id).me.ke.stepNo := by decide

/-! ## Witnesses: steps and memory -/

/-- The answer is there and holds. -/
def okAnd {α β : Type} (e : Except α β) (p : β → Bool) : Bool :=
  match e with
  | .ok b => p b
  | .error _ => false

/-- An empty machine whose page tables map the 4 KiB at 0x10000 of every context to frame 0x20000: the table at 0 is its
own next level, and its entry 16 is the leaf `attr` at level 3. -/
def tabled (attr : Byte) (m : List Host.Cell) : State :=
  { State.reset with
    mem := [(0, 1), (0x80, attr), (0x81, 1), (0x82, 2)] ++ m, dev := { State.reset.dev with frames := [(0, 0x3_0000)] } }

def tleaf (attr : Nat) : Leaf := ⟨0x2_0100 + attr, 0x1_0000, 0x1000, none⟩

/-- A NORMAL, RC, writable, executable page. -/
def based (m : List Host.Cell) : State := tabled 0x93 m

/-- The next turn is `a`. -/
def turn (a : Actor) (s : State) : State := { s with agenda := [⟨a, 5⟩] }

/-- SP 0 at 0x10000, where `susp` stands. -/
def atSusp : State :=
  turn (.scp 0) { strand fun p => { p with r := { p.r with pc := 0x1_0000 }, tlb := [page 0x1_0000 0x193] } with
    mem := [(0x2_0007, 6)] }

theorem witness_StepRuns_scp :
    let b : State := { beginTurn atSusp with cur := 0 }
    (atSusp.dev.powered = true ∧ (atSusp.sp 0).run = .running)
    ∧ (translate b (.sp 0) b.myCtx 0x1_0000 .fetch .scp).toOption = some (leaf 0x193)
    ∧ poisoned atSusp.dev.poison ((leaf 0x193).pa 0x1_0000) 8 = false
    ∧ leNat (b.physRead ((leaf 0x193).pa 0x1_0000) 8) = 0x0600_0000_0000_0000 := by decide +kernel

theorem witness_StepRuns_word : decodeScp 0x0600_0000_0000_0000 = .ok .susp ∧ (decodeScp 0).toOption = some .nop
    ∧ (decodeScp 0xFFFF_FFFF_FFFF_FFFF).toOption = none := ⟨rfl, rfl, rfl⟩

/-- Core 1 at the last word of its IMEM, where `sigwait` stands; and with nothing there. -/
def atSigwait : State :=
  turn (.eqx 1) (State.reset.modEqx 1 fun k => { k with
    pc := 0x7_FFFC, imem := [(0x7_FFFC, 0x0B), (0x7_FFFD, 0xA5), (0x7_FFFE, 0xC5)] })

theorem witness_StepRuns_eqx :
    atSigwait.dev.powered = true ∧ (atSigwait.eqx 1).status = .active ∧ (atSigwait.eqx 1).pc.toNat + 4 ≤ 0x8_0000
    ∧ fetchTrap (atSigwait.eqx 1) = none ∧ (atSigwait.eqx 1).interrupted = false
    ∧ memNat (atSigwait.eqx 1).imem 0x7_FFFC 4 = 0x00C5_A50B ∧ isSigwait 0x00C5_A50B = true
    ∧ (decodeEqx 0x0073_02B3).toOption = none ∧ (rvDecode 0x0073_02B3).isSome = true
    ∧ (decodeEqx 0).toOption = none ∧ rvDecode 0 = none := by decide +kernel

/-- Core 1 with the pc `pc` and, if `irq`, an interrupt that is enabled. -/
def coreAt (pc : W64) (irq : Bool) : State :=
  turn (.eqx 1) (State.reset.modEqx 1 fun k => { k with pc := pc, mie := true, ie := 0x800, irq := irq })

theorem witness_StepRuns_traps : fetchTrap ((coreAt 1 false).eqx 1) = some 0 ∧ fetchTrap ((coreAt 0x8_0000 false).eqx 1) = some 1
    ∧ fetchTrap ((coreAt 0x7_FFFC true).eqx 1) = none ∧ ((coreAt 0x7_FFFC true).eqx 1).interrupted = true
    ∧ isSigwait (BitVec.ofNat 32 (memNat ((coreAt 0x7_FFFC true).eqx 1).imem 0x7_FFFC 4)) = false := by decide +kernel

theorem witness_StepRuns_other :
    (turn (.kernel 67) State.reset).dev.powered = true ∧ isEvent .scrub = true ∧ isEvent (.ageingInterval 0) = true
    ∧ ((turn (.event .scrub) State.reset).modDev fun d => { d with powered := false }).dev.powered = false
    ∧ (turn (.event .reset) State.reset).agenda = [⟨.event .reset, 5⟩] := by decide +kernel

theorem witness_InvKept : Memory.wf atSusp.mem = true ∧ (match step atSusp with
    | .next t => Memory.wf t.mem
    | _ => false) = true := by decide +kernel

theorem witness_MemoryLaws : Memory.wf [(0, 1), (0x80, 7)] = true ∧ Memory.wf ([] : List Host.Cell) = true := by decide

/-! ## Witnesses: Equinox -/

/-- Core 0 with x10 and x11 set; slot 63 as given. -/
def eq (x y : W64) (q : Qcb) (m : List Host.Cell) : State :=
  ((based m).modEqx 0 fun k => { k with x := (k.x.set 10 x).set 11 y }).setSlot 63 ⟨q, 0⟩

def qcb1 : Qcb := { Qcb.init with ring := 0x1_0000, log2n := 4, state := .mapped, prod := 1 }

/-- A LAUNCH packet of number 1 at frame 0x20000. -/
def packet : List Host.Cell := [(0x2_0000, 1), (0x2_0004, 1), (0x2_003C, 1)]

theorem witness_EquinoxInstructions_qfetch :
    let s := eq 63 0x40 qcb1 packet
    let q := (s.slot 63).q
    (s.xreg 11).toNat % 64 = 0 ∧ (s.xreg 11).toNat + 64 ≤ 0xC0_0000_0000 ∧ (s.xreg 10).toNat ≤ 63
    ∧ q.state ≠ .free ∧ q.state ≠ .errored ∧ q.prod ≠ q.head ∧ (s.slot 63).retry < 999
    ∧ okAnd (gRead s .none q.ctx .equinox 0x1_0000 64) (fun b =>
        !packetTorn b (q.head + 1) && !packetBad b && packetRslt b % 8 = 0) = true
    ∧ okAnd (gRead (eq 63 0x40 qcb1 []) .none 0 .equinox 0x1_0000 64) (fun b => packetTorn b 1) = true
    ∧ Memory.wf s.mem = true := by decide +kernel

theorem witness_EquinoxInstructions_slots :
    ((eq 63 0x41 qcb1 []).xreg 11).toNat % 64 ≠ 0 ∧ 63 < ((eq 64 0x40 qcb1 []).xreg 10).toNat
    ∧ ((eq 63 0x40 Qcb.init []).slot 63).q.state = .free
    ∧ ((eq 63 0x40 { qcb1 with state := .errored } []).slot 63).q.state = .errored
    ∧ ((eq 63 0x40 { qcb1 with prod := 0 } []).slot 63).q.prod = ((eq 63 0x40 { qcb1 with prod := 0 } []).slot 63).q.head := by
  decide +kernel

theorem witness_EquinoxInstructions_sigwait :
    (1 < ((eq 63 2 qcb1 []).xreg 11).toNat) ∧ ({ eq 0x8000_0000_0000_0000 0 qcb1 [] with slotSum := 0x8000_0000_0000_0000 }).slotSum
      &&& (eq 0x8000_0000_0000_0000 0 qcb1 []).xreg 10 ≠ 0
    ∧ ({ eq 1 1 qcb1 [] with ctxSum := 1 }).ctxSum &&& (eq 1 1 qcb1 []).xreg 10 ≠ 0
    ∧ ((eq 1 1 qcb1 []).xreg 11).toNat ≤ 1 ∧ (eq 1 1 qcb1 []).ctxSum &&& (eq 1 1 qcb1 []).xreg 10 = 0
    ∧ (eq 1 1 qcb1 []).eqxMe.irq = false := by decide +kernel

/-- A machine with context 0 alive and a QCB of 16 packets, MAPPED, at physical address 0x100; slot 63 as given. -/
def eqQ (st : Byte) (q : Qcb) : State :=
  (eq 63 0x100 q [(0x108, 4), (0x10D, st)]).modCtx 0 fun c => { c with alive := true }

theorem witness_EquinoxInstructions_qload :
    let s := eqQ 1 Qcb.init
    let b := s.physRead 0x100 128
    (s.slot 63).q.state = .free ∧ qcbBad s b = false ∧ (parseQcb b).state ≠ .active ∧ (parseQcb b).state ≠ .errored
    ∧ qcbBad (eqQ 2 Qcb.init) ((eqQ 2 Qcb.init).physRead 0x100 128) = false
    ∧ (parseQcb ((eqQ 2 Qcb.init).physRead 0x100 128)).state = .active
    ∧ qcbBad (eqQ 7 Qcb.init) ((eqQ 7 Qcb.init).physRead 0x100 128) = true
    ∧ ((eqQ 1 { qcb1 with state := .active }).slot 63).q.state = .active
    ∧ ((eqQ 1 qcb1).slot 63).q.state = .mapped ∧ Memory.wf (eqQ 1 qcb1).mem = true
    ∧ (s.xreg 11).toNat % 128 = 0 ∧ ((eq 63 0x140 qcb1 []).xreg 11).toNat % 128 ≠ 0 := by decide +kernel

/-- x10 names the record at physical address 0x20000, of context 0. -/
def dispatching : State :=
  coded ((based (recordBytes 1)).modEqx 0 fun k => { k with x := k.x.set 10 0x2_0000 })

def isNoWalker : Dispatched → Bool
  | .noWalker => true
  | _ => false

theorem witness_EquinoxInstructions_dispatch :
    (dispatching.xreg 10).toNat / 2 ^ 46 = 0 ∧ (dispatching.xreg 10).toNat / 64 % 2 = 0
    ∧ (match recordLaunch dispatching 0 (parseLRec (dispatching.physRead 0x2_0000 128)) with
        | .ok (li, u) => (match dispatchLaunch u li with
            | .ok _ => true
            | _ => false)
        | .error _ => false) = true
    ∧ lrecBad State.reset 0 (parseLRec []) = true
    ∧ (((eq 0x4000_0000_0000 0 qcb1 []).xreg 10).toNat / 2 ^ 46 ≠ 0) := by decide +kernel

/-- Every walker is taken. -/
theorem witness_EquinoxInstructions_dispatch_waits :
    let s := { dispatching with dies := dispatching.dies.map fun d => { d with walkers := Vector.replicate 16 .reserved } }
    (match recordLaunch s 0 (parseLRec (s.physRead 0x2_0000 128)) with
      | .ok (li, u) => isNoWalker (dispatchLaunch u li)
      | .error _ => false) = true := by decide +kernel

/-! ## Witnesses: packets and commands -/

/-- Contexts 0 and 63 are alive, context 0 with queue 0; the page at 0x10000 stands. -/
def commanded : State :=
  ((based []).modCtx 0 fun c => { c with alive := true, queues := [⟨0, Qcb.init, Qcb.init, false, false, 0⟩] }).modCtx 63
    fun c => { c with alive := true }

def cmdOf (a0 a1 a2 a3 : W64) : Cmd := ⟨0, 0, 0x1_0000, a0, a1, a2, a3⟩

/-- The 64 bytes of a COMMAND packet of this code, arguments and result address. -/
def packetOf (code : BitVec 16) (c : Cmd) : List Byte :=
  [1, 0, 0, 0, 2, 0, 0, 0] ++ leBytes 8 code.toNat ++ [c.a0, c.a1, c.a2, c.a3, c.rslt].flatMap (fun w => leBytes 8 w.toNat)
    ++ leBytes 8 0x1_0000_0000

def fetchedOf (code : BitVec 16) (c : Cmd) : Fetched := ⟨c.ctx, c.qid, packetOf code c⟩

/-- That packet has been fetched. -/
def served (code : BitVec 16) (c : Cmd) (s : State) : State := s.modDev fun d => { d with fetched := [fetchedOf code c] }

/-- The state on which the command acts. -/
def acting (s : State) (c : Cmd) (code : BitVec 16) : State := (served code c s).working (fetchedOf code c) c code

theorem witness_CmdServed : CmdServed 3 (cmdOf 1 2 3 4) (served 3 (cmdOf 1 2 3 4) commanded) (fetchedOf 3 (cmdOf 1 2 3 4))
    ∧ CmdServed 0x12 (cmdOf 0xFFFF_FFFF_FFFF_FFFF 0 0 0) (served 0x12 (cmdOf 0xFFFF_FFFF_FFFF_FFFF 0 0 0) commanded)
        (fetchedOf 0x12 (cmdOf 0xFFFF_FFFF_FFFF_FFFF 0 0 0)) :=
  ⟨⟨by decide +kernel, by decide⟩, ⟨by decide +kernel, by decide⟩⟩

/-- Queue 0 of context 0 stands in slot 63, and a packet of code 4 with RSLT 4 has been fetched. -/
def badResult : Cmd := { cmdOf 0 0 0 0 with rslt := 4 }
def slotted : State := served 4 badResult (eqQ 1 qcb1)
def unknown : Cmd := cmdOf 0 0 0 0

theorem witness_QueuePackets :
    queueFree State.reset 0 0 = false ∧ nextPacket commanded 0 0 = none
    ∧ packetReady slotted 2 4 badResult = some (fetchedOf 4 badResult) ∧ badResult.rslt.toNat % 8 ≠ 0
    ∧ slotOf slotted 0 0 = some 63
    ∧ packetReady (served 0x13 unknown commanded) 2 (packetCode (fetchedOf 0x13 unknown).data) (fetchedOf 0x13 unknown).cmd
        = some (fetchedOf 0x13 unknown)
    ∧ packetInstr (fetchedOf 0x13 unknown) = none ∧ packetInstr (fetchedOf 0 unknown) = none
    ∧ (translate commanded .none 0 0x1_0000 .write .equinox).toOption = some (tleaf 0x93) ∧ (2 ^ 48 - 1 : Nat) < 2 ^ 48 := by
  decide +kernel

/-- A LAUNCH packet of the record at `r` with the result address 0x10800 has been fetched. -/
def launching (r : W64) (m : List Host.Cell) : State :=
  ((coded (based m)).modCtx 0 fun c => { c with queues := [⟨0, Qcb.init, Qcb.init, false, false, 0⟩] }).modDev fun d => { d with
    fetched := [⟨0, 0, [1, 0, 0, 0, 1, 0, 0, 0] ++ leBytes 8 r.toNat ++ List.replicate 32 0 ++ leBytes 8 0x1_0800
      ++ leBytes 8 0x1_0000_0000⟩] }

def launchCmd (r : W64) : Cmd := ⟨0, 0, 0x1_0800, r, 0, 0, 0⟩
def launchWork (r : W64) (m : List Host.Cell) : State :=
  match packetReady (launching r m) 1 0 (launchCmd r) with
  | some f => (launching r m).working f (launchCmd r) 0
  | none => plain

def causeAt (r : W64) (m : List Host.Cell) : Cause :=
  match gRead (launchWork r m) .none 0 .equinox r.toNat 128 with
  | .ok b => (checkLRec (launchWork r m) 0 (parseLRec b)).getD 0
  | .error (k, _) => if repairable (launchWork r m) 0 r.toNat k then 0 else k

theorem witness_QueuePackets_launch :
    (packetReady (launching 0x1_0040 []) 1 0 (launchCmd 0x1_0040)).isSome = true ∧ (0x1_0040 : W64).toNat % 128 ≠ 0
    ∧ (packetReady (launching 0x1_0000 []) 1 0 (launchCmd 0x1_0000)).isSome = true
    ∧ causeAt 0x1_0000 [] = cLaunchRecordBad ∧ causeAt 0x1_0000 (recordBytes 1) = 0
    ∧ causeAt 0x2_0000 [] = cPageNotPresent := by decide +kernel

theorem witness_ContextCommands :
    ((acting commanded (cmdOf 0 0x8000 0 0) 1).ctx 1).alive = false
    ∧ (∀ j : CtxId, j < 1 → ((acting commanded (cmdOf 0 0x8000 0 0) 1).ctx j).alive = true)
    ∧ (makeCtx (acting commanded (cmdOf 0 0x8000 0 0) 1) 1 (slkDefaults 0) 0x8000).isSome = true
    ∧ (cmdOf 0 0x4000 0 0).a1.toNat % 0x8000 ≠ 0
    ∧ ((acting commanded (cmdOf 63 0 0 0) 2).ctx 63).alive = true ∧ ctxBusy (acting commanded (cmdOf 63 0 0 0) 2) 63 = false
    ∧ ctxBusy { commanded with launches := [{ launch1 1 .running with ctx := 63 }] } 63 = true := by decide +kernel

theorem witness_ContextCommands_queues :
    (0x1_0000 : W64).toNat % 64 = 0 ∧ 4 ≤ (0x7_10 : W64).toNat % 32 ∧ (0x7_10 : W64).toNat % 32 ≤ 16
    ∧ (0x7_10 : W64).toNat / 32 % 8 = 0 ∧ (0x7_10 : W64).toNat < 2 ^ 11
    ∧ ((acting commanded (cmdOf 0x1_0000 0x710 0 0) 5).ctx 0).queues.map UserQueue.qid = [0]
    ∧ (let q : UserQueue := ⟨4095, Qcb.init, Qcb.init, false, false, 0⟩
       ∃ x ∈ ((commanded.modCtx 0 fun c => { c with queues := [q] }).ctx 0).queues, x.qid.toNat = 4095) := by
  decide +kernel

theorem witness_MappingCommands_map :
    let c := cmdOf 0x2_0000 0x1000 0x190 0
    let b := acting commanded c 3
    sizeCode (c.a2.toNat / 2 ^ 12 % 8) = some (3, 0, 0x1000) ∧ c.a2.toNat < 2 ^ 15 ∧ c.a2.toNat / 2 ^ 9 % 8 = 0
    ∧ c.a2.toNat % 4 = 0 ∧ c.a2.toNat / 2 ^ 4 % 4 ≠ 3 ∧ arg3Ok c.a2.toNat 0 1 = true ∧ inDevArea 0x2_0000 0x1000 = false
    ∧ (match unmapRange b 0 0x2_0000 0x1000 with
        | some (u, _) => (mapPages 0 0x2_0000 0x1000 (pageEntry c.a2.toNat 0 0x1000) 1 u).isSome
        | none => false) = true := by decide +kernel

theorem witness_MappingCommands_unmap :
    let b := acting commanded (cmdOf 0x1_0000 0x1000 0 0) 4
    anyMapped b 0 0x1_0000 1 = true ∧ anyMapped b 0 0x1_1000 1 = false ∧ (unmapRange b 0 0x1_0000 0x1000).isSome = true
    ∧ (0x1_0800 : Nat) % 0x1000 ≠ 0 ∧ (4095 : W64).toNat < 4096 ∧ (0x800 : W64).toNat / 2 ^ 12 % 2 ^ 20 = 0
    ∧ Memory.wf commanded.mem = true := by decide +kernel

def region1 : Region := ⟨true, false, false, true, true, true, 4095, 0, 0x1_0000, 0x1000, 0, 0⟩
def keyed : State := commanded.modDev fun d => { d with regions := [(1, region1)] }

theorem witness_ObjectCommands :
    codeOf commanded 0 9 = none ∧ (codeOf (coded commanded) 0 1).isSome = true
    ∧ (∃ l ∈ [{ launch1 1 .running with r := { rec1 1 1 with code := 1 } }], l.gone = false ∧ l.ctx = 0 ∧ l.r.code = 1)
    ∧ freeRegion (acting commanded (cmdOf 0 0x100_0000_0000_0000 28 0) 9) = some 1
    ∧ freeRegion (acting keyed (cmdOf 0 0 28 0) 9) = some 2 ∧ (28 : W64).toNat % 2 = 0 ∧ (28 : W64).toNat / 2 % 2 = 0
    ∧ assoc? keyed.dev.regions ((0x1FFF : W64).toNat / 4096) = some region1 ∧ region1.gen = (0x1FFF : W64).setWidth 12
    ∧ qpOf (acting commanded (cmdOf 0 0 0 0) 11) 0 = none := by decide +kernel

theorem witness_ObjectCommands_load :
    okAnd (gRead commanded .none 0 .equinox 0x1_0000 64) (fun b =>
      match loadObject commanded 0 b with
      | .fail k _ => k = cZcoBad
      | _ => false) = true := by decide +kernel

theorem witness_ControlCommands :
    okAnd (readObject commanded 0 false 6 63) (fun d => d.length = 32) = true
    ∧ okAnd (readObject commanded 0 false 6 64) (fun _ => true) = false
    ∧ okAnd (gWrite commanded .none 0 .equinox 0x1_0000 (List.replicate 32 0)) (fun _ => true) = true
    ∧ ((commanded.ctx 63).alive = true ∧ (commanded.ctx 63).preempt = none) ∧ (2047 : W64).toNat ≤ 2047
    ∧ liveLaunch { commanded with launches := [launch1 0xFFFF_FFFF .running] } 0 0xFFFF_FFFF = some 0
    ∧ liveLaunch commanded 0 1 = none ∧ commanded.dev.memsplit.getLsbD 7 = false
    ∧ (commanded.modDev fun d => { d with memsplit := 0x80 }).dev.memsplit.getLsbD 7 = true
    ∧ (2 ^ 24 - 1 : Nat) < 2 ^ 24 := by decide +kernel

/-! ## Witnesses: RoCEv2 and Sahat -/

/-- Queue pair 0 of context 0 with its ring at 0x10000, and region 1 (key 0x1FFF). -/
def roce : State := keyed.modDev fun d => { d with qps := [(0, ⟨0, 7, 0, 0x1_0000, 0⟩)] }

theorem witness_RdmaRequests :
    qpOf roce 0 = some ⟨0, 7, 0, 0x1_0000, 0⟩ ∧ rkeyRegion roce ⟨0, 7, 0, 0x1_0000, 0⟩ 0x1FFF 0x1_0FF8 8 Region.wr = some region1
    ∧ rkeyRegion roce ⟨0, 7, 0, 0x1_0000, 0⟩ 0x1FFF 0x1_0FF8 9 Region.wr = none
    ∧ rkeyRegion roce ⟨0, 7, 0, 0x1_0000, 0⟩ 0x1FFE 0x1_0000 8 Region.rd = none
    ∧ rkeyRegion roce ⟨0, 7, 0, 0x1_0000, 0⟩ 0x1FFF 0x1_0000 8 Region.atom = some region1
    ∧ (0x1_0008 ≤ (roce.ctx 0).kick.toNat ∨ (roce.ctx 0).kick.toNat + 0x8000 ≤ 0x1_0000)
    ∧ (translate roce .none 0 0x1_0000 .amo .outside).toOption = some (tleaf 0x93) ∧ Memory.wf roce.mem = true
    ∧ okAnd (gWrite roce .none 0 .equinox 0x1_0000 [1, 2]) (fun _ => true) = true
    ∧ okAnd (gRead roce .none 0 .equinox 0x1_0000 8) (fun _ => true) = true := by decide +kernel

theorem witness_RdmaRequests_management :
    (4095 : Nat) < 4096 ∧ (∃ x ∈ roce.dev.qps, x.2.peer = 7) ∧ (∀ x ∈ roce.dev.qps, x.2.peer ≠ 8) ∧ freeQp roce = some 1 := by
  decide +kernel

/-- Key check outcome as a cause, 0 for a good key. -/
def keyed? (s : State) (h : SahatHdr) (d : List Byte) : Cause :=
  match keyCheck s h d with
  | .ok _ => 0
  | .error k => k

theorem witness_SahatRequests_memory :
    arrives roce (hdr 1 0x1FFF 8 0x1_0FF8) = true ∧ keyed? roce (hdr 1 0x1FFF 8 0x1_0FF8) [] = 0
    ∧ keyed? roce (hdr 3 0x1FFF 8 0x1_0FF8) (leBytes 8 1) = 0 ∧ keyed? roce (hdr 4 0x1FFF 8 0x1_0FF8) (leBytes 8 1) = 0
    ∧ keyed? roce (hdr 6 0x1FFF 8 0x1_0FF8) (leBytes 8 1) = 0
    ∧ keyed? roce (hdr 1 0x1FFE 8 0x1_0FF8) [] = cKeyStale ∧ keyed? roce (hdr 3 0x1FFE 8 0x1_0000) (leBytes 8 1) = cKeyStale
    ∧ ordBlocked roce (hdr 1 0x1FFF 8 0x1_0FF8) = false
    ∧ (translate roce .none 0 0x1_0FF8 .read .outside).toOption = some (tleaf 0x93)
    ∧ (translate roce .none 0 0x1_0FF8 .write .outside).toOption = some (tleaf 0x93) := by decide +kernel

/-- Region 1 is the SRF of the gang of task 0 of launch 1, whose seat 0 stands on SP 0 with 8 MiB. -/
def srfKeyed : State :=
  (seated (fun p => { p with alloc := 0x80_0000 }) [seat1 (some 0)]).modDev fun d => { d with
    regions := [(1, { region1 with srf := true, base := 0, lenb := 0x80_0000, glaunch := 1 })] }

theorem witness_SahatRequests_srf :
    arrives srfKeyed (hdr 5 0x1FFF 128 0x100_0000_007F_FF80) = true
    ∧ keyed? srfKeyed (hdr 5 0x1FFF 128 0x100_0000_007F_FF80) (List.replicate 128 1) = 0
    ∧ regionGang srfKeyed { region1 with srf := true, base := 0, lenb := 0x80_0000, glaunch := 1 }
        = some (0, gang1 [seat1 (some 0)])
    ∧ ((gang1 [seat1 (some 0)]).seats[0x100_0000_007F_FF80 / 2 ^ 23 % 64]?).bind Seat.sp = some 0
    ∧ mapWf (0 : Line) 0 (srfKeyed.sp 0).srf = true := by decide +kernel

theorem witness_SahatRequests_checks :
    reqOk (hdr 1 0 8 0x1_00FC) [] = false ∧ reqOk (hdr 1 0 4 0x1_00FC) [] = true ∧ regionOf roce 0 = none
    ∧ regionOf roce 0x1FFF = some region1
    ∧ regionOf (roce.modDev fun d => { d with regions := [(1, { region1 with valid := false })] }) 0x1FFF
        = some { region1 with valid := false }
    ∧ ((0xFFFF : Nat) < region1.base.toNat) ∧ region1.base.toNat + region1.lenb.toNat < 0x1_0FF9 + 8
    ∧ { region1 with rd := false }.rd = false ∧ { region1 with atom := false }.atom = false := by decide +kernel

/-- The request of tag 9 is open, of SP 0, whose window 3 has OUTST as given. -/
def awaited (typ : BitVec 6) (w : Issuer) (pend : Pend) (outst : BitVec 10) : State :=
  opened typ w (strand fun p => { p with
    pend := pend, r := { p.r with win := p.r.win.set 3 { Window.init with outst := outst } } })

def reply (typ : BitVec 6) (c : Cause) (n : BitVec 8) : SahatHdr := { hdr typ 0 n 0 with cause := c }

theorem witness_SahatReplies :
    arrives (awaited 1 (.scp 0) (.remote 9 none []) 0) (reply 2 0 8) = true
    ∧ replyBad (awaited 1 (.scp 0) (.remote 9 none []) 0) (reply 2 0 8) 2 (leBytes 8 1) = false
    ∧ replyBad (awaited 1 (.scp 0) (.remote 9 none []) 0) (reply 2 0 7) 2 (leBytes 8 1) = true
    ∧ replyBad (awaited 6 (.scp 0) (.remote 9 none []) 0) (reply 7 0 8) 7 (leBytes 8 1) = false
    ∧ replyBad (awaited 3 (.window 0 3 none) .none 1) (reply 8 0 1) 8 [] = false
    ∧ replyBad (awaited 3 (.window 0 3 none) .none 1) (reply 9 cKeyRange 1) 9 [] = false
    ∧ replyBad plain (reply 8 0 1) 8 [] = false ∧ (plain.dev.txns.find? fun t => t.h.ssid = 0 && t.h.tag = 9 && t.h.seq = 1) = none
    ∧ ((awaited 1 (.scp 0) (.remote 9 none []) 0).sp 0).pend = .remote 9 none [] := by decide +kernel

/-! ## Witnesses: code objects -/

/-- A file of 128 bytes at frame 0x20000: ELF64, machine 0xC7E2, one null section header at 64. -/
def elf : List Host.Cell :=
  [(0x2_0000, 0x7F), (0x2_0001, 0x45), (0x2_0002, 0x4C), (0x2_0003, 0x46), (0x2_0004, 2), (0x2_0005, 1), (0x2_0006, 1),
   (0x2_0012, 0xE2), (0x2_0013, 0xC7), (0x2_0028, 64), (0x2_003A, 64), (0x2_003C, 1)]

theorem witness_ObjectCommands_object :
    let s := (based elf).modCtx 0 fun c => { c with alive := true }
    let b := acting s (cmdOf 0x1_0000 128 0 0) 7
    okAnd (gRead b .none 0 .equinox 0x1_0000 128) (fun d =>
      match loadObject b 0 d with
      | .later _ v _ => v = 1
      | _ => false) = true := by decide +kernel

/-! ## Witnesses: time-outs -/

def sent (at_ : Nat) : State := { awaited 3 (.window 0 3 none) .none 1 with time := at_ }
def waiting1 : Packet := ⟨hdr 3 0 8 0, leBytes 8 1, 0, 0⟩
/-- At time 1000001 a packet waits at station 3 and a request is held since 0 for at most 1000000 ns. -/
def late : State :=
  { plain with
    time := 1000001
    dev := { plain.dev with
      arb := plain.dev.arb.set 3 ⟨[waiting1], 0, []⟩, held := [⟨hdr 5 0x1FFF 8 0, leBytes 8 1, 0, 1000000, false, true⟩] } }

theorem witness_FabricTimeouts :
    (sent 4000001).dev.txns.find? (fun t => t.h.ssid = 0 && t.h.tag = 9) = some ⟨hdr 3 0 8 0, 3, 0, 4000000, .window 0 3 none, 0⟩
    ∧ (0 : Nat) + 4000000 < (sent 4000001).time ∧ (sent 4000000).time ≤ 0 + 4000000
    ∧ late.dev.arb[(3 : Fin 16)].wait[0]? = some waiting1 ∧ (waiting1.now late.time).h.slack = 0 ∧ waiting1.h.ovd = false
    ∧ late.dev.held[0]? = some ⟨hdr 5 0x1FFF 8 0, leBytes 8 1, 0, 1000000, false, true⟩ ∧ 0 + 1000000 < late.time
    ∧ (hdr 5 0x1FFF 8 0).src ≠ late.dev.accId ∧ late.dev.lanes[(Fin.ofNat 16 3 : Fin 16)] ≠ 0 := by decide +kernel

def copyRun : CopyRun := ⟨⟨0, some 5, 0, 0, 0, .copy 0 0 0 2 5⟩, none, 0, .line 0 1000, [], [], .gathering, none, [], [], none⟩

/-- The strand, its kernel and its channel 2 wait on empty lines since 0 for at most 1000 ns. -/
def lineWait (now : Nat) : State :=
  { strand fun p => { p with
      pend := .line 0 1000, ke := { p.ke with run := some { run1 with since := some (0, 1000) } }
      str := { p.str with chans := p.str.chans.set 2 { Channel.init with run := some copyRun } } } with
    time := now }

theorem witness_FabricTimeouts_lines :
    ((lineWait 1001).sp 0).pend = .line 0 1000 ∧ 0 + 1000 < (lineWait 1001).time ∧ (lineWait 1000).time ≤ 0 + 1000
    ∧ ((lineWait 1001).sp 0).ke.run = some { run1 with since := some (0, 1000) }
    ∧ ((lineWait 1001).sp 0).str.chans[(2 : Fin 16)].run = some copyRun ∧ copyRun.pend = .line 0 1000 ∧ copyRun.stop = none := by
  decide +kernel

/-- A gang with seat 0 on SP 0 whose context is asked to leave since 0, or whose save began at 0. -/
def asked (now : Nat) (req : Option PreemptReq) (q : Seat) (save : Option Nat) : State :=
  { (seated id [q]).modCtx 0 fun c => { c with alive := true, preempt := req } with
    gangs := [{ gang1 [q] with saveAt := save }], time := now }

def seatRb : Seat := { seat1 (some 0) with noRb := false }

theorem witness_SchedulerTimeouts :
    ((asked 10000000001 none seatRb none).ctx 0).alive = true ∧ hasWork (asked 10000000001 none seatRb none) 0 = true
    ∧ saving (asked 10000000001 none seatRb none) 0 = false
    ∧ ((asked 10000000001 none seatRb none).ctx 0).progress + ((asked 0 none seatRb none).ctx 0).ctxwd.toNat % 2 ^ 16 * 1000000
        < (asked 10000000001 none seatRb none).time
    ∧ (∃ q ∈ (gang1 [seatRb]).seats, q.sp ≠ none)
    ∧ gangNoRb (asked 1000001 (some ⟨0, false⟩) seatRb none) (gang1 [seatRb]) = false
    ∧ 0 + ((asked 0 none seatRb none).ctx 0).ctxwd.toNat / 2 ^ 16 % 2 ^ 16 * 1000 < 1000001
    ∧ 0 + ((asked 0 none seatRb none).ctx 0).ctxwd.toNat / 2 ^ 32 % 2 ^ 16 * 1000 < 20000001
    ∧ gangNoImage (asked 20000001 none seatRb (some 0)) (gang1 [seatRb]) = true := by decide +kernel

/-- Seat 0 has a checkpoint image; it may not roll back if `n`. -/
def imaged (n : Bool) : Seat := { seatRb with image := some ⟨ScpRegs.init, 0, 0, Vector.replicate 16 Channel.init, 0, 0, 0⟩, noRb := n }

theorem witness_SchedulerTimeouts_images :
    let s (n : Bool) := asked 20000001 none (imaged n) (some 0)
    gangNoImage (s true) (gang1 [imaged true]) = false ∧ gangNoRb (s true) (gang1 [imaged true]) = true
    ∧ gangNoImage (s false) (gang1 [imaged false]) = false ∧ gangNoRb (s false) (gang1 [imaged false]) = false := by
  decide +kernel

/-! ## Witnesses: scheduling -/

def task1 : Task := ⟨0, .ready, 0, 0, [], 1, 2, 3, 4, 0, false⟩

/-- A running GRAPH launch with one READY task, of gangs of 2^g, in the ready queue of a die. -/
def graphed (g : BitVec 3) (d : DieId) : State :=
  { State.reset.modDie d fun x => { x with ready := [⟨0, 0⟩] } with
    launches := [{ launch1 1 .running with r := { rec1 1 1 with kind := 1, glog := g }, tasks := [task1] }] }

/-- The SPs of die 0 but the first are taken. -/
def crowded (s : State) : State :=
  { s with sps := Vector.ofFn fun i => if i.val = 0 ∨ 17 ≤ i.val then s.sps[i] else { s.sps[i] with run := .parked } }

theorem witness_Dispatching_task :
    (graphed 0 0).launch? 0 = some { launch1 1 .running with r := { rec1 1 1 with kind := 1 }, tasks := [task1] }
    ∧ decision (graphed 0 0) 0 = .run (.task 0 0) ∧ decision (graphed 0 1) 0 = .steal 1 (.task 0 0)
    ∧ placementOk (graphed 0 0) 0 1 [15] = true ∧ placementOk (graphed 0 0) 0 1 [16] = false
    ∧ decision (crowded (graphed 1 0)) 0 = .hold (.task 0 0) ∧ decision State.reset 0 = .nothing := by decide +kernel

/-- A running GRID launch whose range [lo, hi) stands at walker 15 of die 3, with grain `g`. -/
def ranged (g : W32) (lo hi : Nat) : State :=
  { State.reset.modDie 3 fun x => { x with walkers := x.walkers.set 15 (.active 0 lo hi) } with
    launches := [{ launch1 1 .running with r := rec1 g 1 }] }

theorem witness_Dispatching_split :
    decision (ranged 1 0 2) 0 = .split 0 ⟨3, 15, 0, 0, 2⟩
    ∧ (let s := (ranged 1 0 2).modDev fun d => { d with splits := [⟨3, 15, 0, 0⟩] }
       (⟨3, 15, 0, 0⟩ : SplitReq) ∈ s.dev.splits ∧ (s.die 3).walkers[(15 : Fin 16)] = .active 0 0 2
       ∧ 2 * (rec1 1 1).grain.toNat ≤ 2 - 0)
    ∧ (∃ l, (ranged 1 0 1).launch? 0 = some l ∧ 1 - 0 < 2 * l.r.grain.toNat) :=
  ⟨by decide +kernel, by decide +kernel, ⟨_, rfl, by decide⟩⟩

theorem witness_Dispatching_grant :
    let s (x : Option (Nat × Nat × Nat)) := (ranged 1 0 2).modDev fun d => { d with grants := [⟨0, 0, x⟩] }
    (s none).dev.grants.find? (fun g => g.die = 0 && g.walker = 0) = some ⟨0, 0, none⟩
    ∧ (s (some (0, 1, 2))).dev.grants.find? (fun g => g.die = 0 && g.walker = 0) = some ⟨0, 0, some (0, 1, 2)⟩
    ∧ ((s none).ctx 0).preempt = none
    ∧ (((ranged 1 0 2).modCtx 0 fun c => { c with saved := [⟨0, 1, 2, 15, 3⟩] }).ctx 0).saved ≠ [] := by decide +kernel

/-- An accepted GRID launch of one tile in the pool of die 0. -/
def pooled : State :=
  { State.reset.modDie 0 fun x => { x with pool := [0] } with
    launches := [{ launch1 1 .accepted with r := { rec1 1 1 with x := 1, y := 1, z := 1, w := 1 }, src := .pool 0 }] }

theorem witness_Dispatching_pool : (pooled.die 0).pool = [0]
    ∧ (match dispatchLaunch pooled 0 with
        | .ok _ => true
        | _ => false) = true := by decide +kernel

def formed : State := (seated id [seat1 (some 0)]).modSp 0 fun p => { p with run := .formed }
def stopped1 : State := (seated id [seat1 (some 0)]).modSp 0 fun p => { p with run := .stopped .susp }

/-- A gang of one NEW seat whose record stands at 0x10000. -/
def seatNew : Seat := { seat1 none with status := .new, recAt := 0x1_0000 }
def fresh (m : List Host.Cell) : State := { based m with gangs := [gang1 [seatNew]], launches := [launch1 1 .running] }

theorem witness_GangsComeAndGo :
    gangFormed formed (gang1 [seat1 (some 0)]) = true ∧ gangSaved stopped1 (gang1 [seat1 (some 0)]) = true
    ∧ (resumable (fresh []) (gang1 [seatNew]) = true ∧ resumeTurn (fresh []) 0 (gang1 [seatNew]) 1 = true
      ∧ placementOk (fresh []) 1 1 [17] = true ∧ recordsOk (fresh []) (gang1 [seatNew]) = false)
    ∧ recordsOk (fresh [(0x2_0008, 1)]) (gang1 [seatNew]) = true
    ∧ okAnd (loadImages (fresh [(0x2_0008, 1)]) 0 (kimLoads (fresh []) 0 (launch1 1 .running).r)) (fun _ => true) = true
    ∧ seatRepaired plain (gang1 [{ seatNew with status := .faulted }]) { seatNew with status := .faulted } = true := by
  decide +kernel

/-- The entry of the page at 0x10000 is that of a HOST page that is not present. -/
def hosted : State := tabled 0x9E []

theorem witness_PagesAndShootdowns_page :
    hostEntry hosted 0 0x1_0000 = some (0x80, 0x2_019E, 0x1000) ∧ hostEntry plain 0 0 = none
    ∧ (pageIn hosted 0x2_019E 0x1000 0 0x1_0000 [1, 2]).isSome = true := by decide +kernel

def shot : Shootdown := ⟨1, 0, 0x1_0000, 0x1_1000, [.sp 0], []⟩
def recorded : State :=
  strand fun p => { p with
    tlb := [page 0x1_0000 0x193], sto := { p.sto with records := [⟨0x1_0000, 5, 3, cPageNotPresent, 1⟩], delivered := true } }

theorem witness_PagesAndShootdowns :
    (recorded.sp 0).sto.delivered = true ∧ (recorded.sp 0).run = .running
    ∧ recordFix { recorded with mem := [(0, 1), (0x80, 0x93), (0x81, 1), (0x82, 2)] } 0 ⟨0x1_0000, 5, 3, cPageNotPresent, 1⟩ = .ready
    ∧ unitBusy recorded (.sp 0) = false
    ∧ ((recorded.modDev fun d => { d with shoots := [shot] }).dev.shoots.filter fun z => z.left.contains (TlbUnit.sp 0)) = [shot]
    := by decide +kernel

/-! ## Witnesses: streams, kernels, launches that end -/

def copyOp : StreamOp := ⟨0, some 5, 0, 0, 0, .copy 0 0 0 2 5⟩
def queued (x : Channel) : State := strand fun p => { p with str := { p.str with chans := p.str.chans.set 15 x } }

theorem witness_StreamsRun_copy :
    copyReady ((queued { Channel.init with queue := [copyOp] }).sp 0).str 15 = true
    ∧ ((queued { Channel.init with queue := [copyOp] }).sp 0).str.chans[(15 : Fin 16)].queue = [copyOp]
    ∧ copyReady (plain.sp 0).str 15 = false
    ∧ (let r : CopyRun := ⟨copyOp, none, 0, .none, [], [], .gathering, some cFSpaceHole, [], [], none⟩
       r.over = true
       ∧ ((copySettle (queued { Channel.init with run := some r }) 0 15).sp 0).str.chans[(15 : Fin 16)].run = some r) := by
  decide +kernel

def fenceOp : StreamOp := ⟨3, some 31, 0, 0, 0, .sfence [0]⟩
def kloadOp : StreamOp := ⟨4, some 30, 0, 0, 0, .kload 4095 0x1_0000 1⟩

theorem witness_StreamsRun_others :
    ([fenceOp].find? fun f => f.tag = some 31) = some fenceOp ∧ sfenceReady (plain.sp 0).str fenceOp = true
    ∧ (let s := strand fun p => { p with str := { p.str with kimq := [kloadOp] } }
       kloadReady (s.sp 0) = true ∧ (s.sp 0).str.kimq = [kloadOp])
    ∧ (let s := strand fun p => { p with str := { p.str with kload := some (kloadOp, 1) } }
       (s.sp 0).str.kload = some (kloadOp, (1 : W64).toNat)) := by decide +kernel

theorem witness_KernelsAndLaunchesEnd :
    (let s := strand fun p => { p with str := { p.str with kq := [krunOp] } }
     (s.sp 0).str.kq = [krunOp] ∧ krunReady (s.sp 0) = true)
    ∧ (let s := kern fun e => { e with run := some { run1 with phase := .ending } }
       (s.sp 0).ke.run = some { run1 with phase := .ending } ∧ (s.sp 0).ke.infl = [])
    ∧ (let l := { launch1 1 .done with r := { rec1 1 1 with csig := 0x1_0FF8, cval := 9 } }
       let s : State := { based [] with launches := [l] }
       completionDue s 0 = some l ∧ (translate s .none 0 0x1_0FF8 .write .scp).toOption = some (tleaf 0x93)
       ∧ Memory.wf s.mem = true ∧ (tleaf 0x93).kind ≠ 1) := by decide +kernel

/-! ## Witnesses: the Dealer -/

/-- One token, one choice, one expert; every array on the page at 0x10000. -/
def desc1 : DealDesc :=
  { parseDesc [] with
    t := 1, k := 1, e := 1, rowb := 64, rows := 0x1_0400, sstr := 64, ostr := 64, choice := 0x1_0000, emap := 0x1_0020
    inv := 0x1_0010, out := 0x1_0800, dsig := 0x1_0040, seq := 7 }

def op1 (u : Bool) : DealOp := ⟨0, none, u, desc1, 0, 0, false⟩

/-- Expert 0 on accelerator 0 with CAP 1, as its map entry has it. -/
def expert1 : Expert := ⟨⟨0, true, 0x1FFF, 0x1_0800, 1, 64, 0x1_0060, true⟩, 1, some 0, 0, none⟩

def dealer1 (q : List DealOp) (r : Option DealRun) (m : List Host.Cell) : State :=
  (based m).modDie 3 fun d => { d with dealer := ⟨q, r, []⟩ }

def dataAnd (g : DealGot) (f : List Byte → State → Bool) : Bool :=
  match g with
  | .data d s => f d s
  | _ => false

theorem witness_DealerSteps_count :
    ((dealer1 [op1 false] none []).die 3).dealer.run = none ∧ ((dealer1 [op1 false] none []).die 3).dealer.queue = [op1 false]
    ∧ dataAnd (dealRead (dealBegin (dealer1 [op1 false] none []) 3 (op1 false)) 3 (op1 false) 0x1_0000 4) (fun _ t =>
        dataAnd (dealRead t 3 (op1 false) 0x1_0020 32) fun _ _ => true) = true
    ∧ (match dealRead plain 3 (op1 false) 0x1_0000 4 with
        | .fail _ => true
        | _ => false) = true := by decide +kernel

/-- A run whose only choice is as `x`. -/
def dealRun (p : DealPhase) (x : DealOut) : DealRun := { DealRun.init (op1 false) p with choices := [⟨0, 0, x⟩], experts := [expert1] }

theorem witness_DealerSteps_scatter :
    (dealRun .scatter (.counted 1)).choices[0]? = some ⟨0, 0, .counted 1⟩ ∧ expert1.base = some 0
    ∧ expert1.ent.cap.toNat ≤ (0 : W64).toNat + 1 ∧ (dealRun .scatter (.counted 1)).waitRes = 0
    ∧ (dealRun .scatter (.counted 1)).experts[0]? = some expert1 := by decide

def invRun : DealRun := { dealRun .scatter (.placed 0) with next := 1, inv := [0] }

theorem witness_DealerSteps_publish :
    dataAnd (dealWrite (dealer1 [] (some invRun) []) 3 (op1 false) 0x1_0010 (leBytes 4 0))
      (fun _ t => (t.die 3).dealer.run = some invRun) = true
    ∧ invRun.phase = .scatter ∧ invRun.inv = [0] ∧ invRun.choices[0]? = some ⟨0, 0, .placed 0⟩
    ∧ (dealRun .block (.placed 0)).pubs = 0 ∧ (dealRun .block (.placed 0)).status < 2
    ∧ dataAnd (dealWrite (dealer1 [] (some (dealRun .block (.placed 0))) []) 3 (op1 false) 0x1_0048
        (leBytes 8 (dealRun .block (.placed 0)).statusWord)) (fun _ t =>
        dataAnd (dealWrite t 3 (op1 false) 0x1_0040 (leBytes 8 7)) fun _ _ => true) = true := by decide +kernel

/-- An undeal on die 3 at its first token, with INV 0xFFFF_FFFF, or INV 0 and a usable map entry of accelerator 0. -/
def gather1 (m : List Host.Cell) : State := dealer1 [] (some (DealRun.init (op1 true) .gather)) m

theorem witness_DealerSteps_undeal :
    (DealRun.init (op1 true) .gather).phase = .gather ∧ (op1 true).d.k = 1 ∧ (op1 true).d.ufmt = false
    ∧ (DealRun.init (op1 true) .gather).next < (op1 true).d.t.toNat
    ∧ dataAnd (dealRead (gather1 [(0x2_0010, 255), (0x2_0011, 255), (0x2_0012, 255), (0x2_0013, 255)]) 3 (op1 true) 0x1_0010 4)
        (fun iv t => dataAnd (dealRead t 3 (op1 true) 0x1_0000 4) fun _ t2 =>
          field iv 0 4 = 0xFFFF_FFFF
            && dataAnd (dealWrite t2 3 (op1 true) 0x1_0800 ((List.range 16).flatMap fun _ => leBytes 4 0)) fun _ _ => true) = true := by
  decide +kernel

/-- INV 0, a map entry of RSTR 64 at base 0, and the 64 bytes of the row answered. -/
def gather2 : State :=
  (gather1 [(0x2_0021, 8), (0x2_0034, 64)]).modDie 3 fun d => { d with
    dealer := { d.dealer with memo := [⟨tREAD, 0, 0, 0, 64, some (.data (List.replicate 64 1))⟩] } }

theorem witness_DealerSteps_undeal_row :
    dataAnd (dealRead gather2 3 (op1 true) 0x1_0010 4) (fun iv t => dataAnd (dealRead t 3 (op1 true) 0x1_0000 4) fun ch t2 =>
      field iv 0 4 = 0 && field ch 0 2 = 0 && dataAnd (dealRead t2 3 (op1 true) 0x1_0020 32) fun em t3 =>
        (parseEMap em).usable 64 && dataAnd (readSlot 3 (op1 true) (parseEMap em) (pieces 256 0 64 65) t3 []) fun b t4 =>
          b == List.replicate 64 1 && dataAnd (dealWrite t4 3 (op1 true) 0x1_0800 (List.replicate 64 0)) fun _ _ => true)
      = true := by decide +kernel

/-! ## Witnesses: errors, links, temperature -/

def queue1 (a b : Bool) : State := plain.modCtx 0 fun c => { c with queues := [⟨7, Qcb.init, qcb1, a, b, 0⟩] }

theorem witness_EccErrors :
    (0xBF_FFFF_FFFF : Nat) < hbmTop ∧ (plain.sp 67).run = .idle ∧ plain.me.run ≠ .idle ∧ (plain.sp 0).retired = false
    ∧ 1000 < (((strand fun p => { p with corr := List.replicate 1001 0 }).sp 0).corr.filter fun n => 0 < n + 86400000000000).length
    ∧ 1000 ≥ (((strand fun p => { p with corr := List.replicate 1000 0 }).sp 0).corr.filter fun n => 0 < n + 86400000000000).length
    ∧ (plain.eqx 11).status ≠ .fenced ∧ (plain.dev.scrubs + 1) * 86400000000000 ≤ ({ plain with time := 86400000000000 }).time
    ∧ ((queue1 true false).ctx 0).queues = [⟨7, Qcb.init, qcb1, true, false, 0⟩]
    ∧ ((queue1 false true).ctx 0).queues = [⟨7, Qcb.init, qcb1, false, true, 0⟩] := by decide +kernel

theorem witness_LinksTemperatureReset :
    (0 : BitVec 3).toNat < (plain.dev.lanes[(15 : Fin 16)]).toNat ∧ (plain.dev.lanes[(15 : Fin 16)]).toNat ≤ (4 : BitVec 3).toNat
    ∧ (plain.die 3).hot = false ∧ ((plain.modDie 3 fun d => { d with hot := true }).die 3).hot = true
    ∧ slotOk (plain.modDev fun d => { d with boot := { d.boot with slotA := d.boot.slotB } }).dev.boot
        (plain.dev.boot.slotB) = false := by decide +kernel

/-! ## Worked examples of the manual -/

/-- R43, R44, R46, example of chapter 3: Morton order of a 5 by 3 space, and the shares of the dies. -/
theorem test_morton_and_shares :
    let r : LRec := { parseLRec [] with order := 2, x := 5, y := 3, z := 1, w := 1 }
    r.space = 32 ∧ r.tile 13 = some ⟨3, 2, 0, 0⟩ ∧ r.tile 14 = none ∧ r.tile 16 = some ⟨4, 0, 0, 0⟩ ∧ r.tile 17 = none ∧ r.tile 18 = some ⟨4, 1, 0, 0⟩
    ∧ r.tile 24 = some ⟨4, 2, 0, 0⟩ ∧ shares 32 [8, 8, 4, 0] = [(0, 12), (12, 25), (25, 32), (32, 32)] := by decide +kernel

/-- R134, example: 1.0 + 2^24 + 1.0 added one at a time at a controller, in two orders. -/
theorem test_sadd_orders :
    (fp32.add .rne (fp32.add .rne 0x3F80_0000 0x3F80_0000).1 0x4B80_0000).1 = 0x4B80_0001
    ∧ (fp32.add .rne (fp32.add .rne 0x3F80_0000 0x4B80_0000).1 0x3F80_0000).1 = 0x4B80_0000 := by decide +kernel

/-- R407, example of vredr: 2^24, 1.0 and 1.0 are summed exactly, then rounded, with no flag; R418: 1.0 + 2^24 is inexact. -/
theorem test_reduce_exact :
    reduce 0 (laneFmt 0) [0x4B80_0000, 0x3F80_0000, 0x3F80_0000, 0] = (0x4B80_0001, 0)
    ∧ (reduce 0 (laneFmt 0) [0x3F80_0000, 0x4B80_0000]).1 = 0x4B80_0000
    ∧ (reduce 0 (laneFmt 0) [0x3F80_0000, 0x4B80_0000]).2 ≠ 0 := by decide +kernel

/-- R130, example of vcvt: 1 + 2^-23 to BF16 is 0x3F80, inexact. -/
theorem test_vcvt_bf16 : (cvt (laneFmt 0) (laneFmt 1) .rne 0x3F80_0001).1 = 0x3F80
    ∧ (cvt (laneFmt 0) (laneFmt 1) .rne 0x3F80_0001).2 ≠ 0 := by decide +kernel

/-- R390, example of unpk: 0x4D with scale 0x80 is 13.0; so is code 0b1000 of an SB4 block with spare 0x4D and scale 0x80. -/
theorem test_unpk : unpkElem 0 0 true (0x80, 0) 0x4D = (0x4150_0000, 0) ∧ unpkElem 4 0 true (0x80, 0x4D) 8 = (0x4150_0000, 0) := by
  decide +kernel

/-- R123, example: elements 13, 12.5, 10 and -7 of an SB4 block with spare 0x4D and scale 0x80. -/
theorem test_pack_sb4 :
    (packElem 4 true (0x80, 0x4D) (.fin false 13 0)).1 = 8 ∧ (packElem 4 true (0x80, 0x4D) (.fin false 25 (-1))).1 = 7
    ∧ (packElem 4 true (0x80, 0x4D) (.fin false 10 0)).1 = 6 ∧ (packElem 4 true (0x80, 0x4D) (.fin true 7 0)).1 = 0xE := by
  decide +kernel

/-- R133, example of vtopk: lanes 5, 7, 3 and 2 come first. -/
theorem test_topk :
    ((rank 0 ((List.range 64).map fun n => (match n with
      | 0 => 0xFF80_0000
      | 1 => 0x7FC0_0000
      | 3 => 0x3F00_0000
      | 5 => 0x3F66_6666
      | 7 => 0x3F66_6666
      | _ => 0xBF80_0000, n))).take 4).map Prod.snd = [5, 7, 3, 2] := by decide +kernel

/-- R262, R291, R322, R351: CTL words of the examples of loop and rep. -/
theorem test_decode_ctl :
    decodeSlot encodeCtl candidateCtl 0x3005_0100 = .ok (some (.loop 5 1))
    ∧ decodeSlot encodeCtl candidateCtl 0x3005_0180 = .ok (some (.loopPoll 5 1))
    ∧ decodeSlot encodeCtl candidateCtl 0x7084_5000 = .ok (some (.rep 2 4 true false true 0)) := ⟨rfl, rfl, rfl⟩

/-- R289, example of bfext. -/
theorem test_bfext : (match exec (.bfext ⟨5, 6, 7⟩)
      (State.reset.modEqx 0 fun k => { k with x := (k.x.set 6 0x0ABC_DEF0).set 7 0x1C4 }) with
    | .next t => t.xreg 5
    | _ => 0) = 0xEF := by decide +kernel

/-- R285, example of amog: 0x10 plus 3; s5 receives 0x10. -/
theorem test_amog : (match exec (.amog ⟨3, 3, 3, 0⟩ 0 5 1 2 0) { paged 0x1_0000 3 0x193 with mem := [(0x2_0000, 0x10)] } with
    | .next t => t.sreg 5 = 0x10 && t.mem = [(0x2_0000, 0x13)]
    | _ => false) = true := by decide +kernel

/-- R72, example: a cursor of a stream bound at 0x40000 with L = 2, in cluster 3. -/
theorem test_cursor :
    let s (q : BitVec 23) := strand fun p => { p with
      alloc := 0x80_0000, fe := BitVec.allOnes 65536
      ke := { p.ke with
        run := some run1, bind := p.ke.bind.set 0 ⟨0x4_0000, true, 1⟩
        cl := p.ke.cl.map fun k => { k with q := k.q.set 0 q } } }
    let after (q : BitVec 23) := match exec (.srd 0 3 0) (s q) with
      | .next t => t.me.ke.cl[(3 : Fin 8)].q[0]
      | _ => 0
    after 0x4_3000 = 0x4_B000 ∧ after 0x4_B000 = 0x4_3000 := by decide +kernel

/-- R100, R313, example: lcset 2, 3 sets NIT 1 and NPS 4. -/
theorem test_lcset :
    let s := kern fun e => { e with lit := 2 }
    (match exec (.lcset 0 0 true 3) s with
      | .next t => let e := ((landDue (t.modKe 0 fun e => { e with stepNo := 1 }) 0).sp 0).ke
        e.nit = 1 && e.nps = 4 && e.nst = 3
      | _ => false) = true := by decide +kernel

/-- R300, R350: division by zero and the overflow of the least number. -/
theorem test_division :
    (match exec (.div true 3 1 2) (strandOf 7 0) with
      | .next t => t.sreg 3 = 0xFFFF_FFFF_FFFF_FFFF && t.me.r.aflags = 0x40
      | _ => false) = true
    ∧ (match exec (.rem true 3 1 2) (strandOf 0x8000_0000_0000_0000 0xFFFF_FFFF_FFFF_FFFF) with
      | .next t => t.sreg 3 = 0 && t.me.r.aflags = 0
      | _ => false) = true := by decide +kernel

/-! ## Witnesses: seats, services and loads in flight -/

/-- Two seats; on SP 1, where the second one stands, the changes `f`. -/
def pair (f : Sp → Sp) : State := (seated id [seat1 (some 0), seat1 (some 1)]).modSp 1 f

theorem witness_TaskEnd_waits :
    (seat1 (some 0)).sp = some (pair id).cur ∧ ([seat1 (some 0), seat1 (some 1)].filterMap Seat.sp).Nodup
    ∧ ((pair id).sp 1).pend ≠ .gbar ∧ ((pair id).sp 1).run ≠ .stopped .gbar
    ∧ ((pair fun p => { p with run := .running, pend := .gbar }).sp 1).pend = .gbar
    ∧ seatParked (pair fun p => { p with run := .running, pend := .gbar }) (seat1 (some 1)) = false
    ∧ ((pair fun p => { p with run := .stopped .gbar }).sp 1).run = .stopped .gbar := by decide +kernel

theorem witness_GangBarrier_parked : seatParked (pair fun p => { p with run := .parked }) (seat1 (some 1)) = true
    ∧ allArrived (gang1 [seat1 (some 0), seat1 (some 1)]) 0 = false
    ∧ reqPending ((pair id).modCtx 0 fun c => { c with preempt := some ⟨0, false⟩ }) 0 = true := by decide +kernel

/-- s9 names class 6, s10 context 0, s11 the end of a page, s12 the length 32. -/
def asksState : State :=
  (strand fun p => { p with r := (((p.r.put 9 6).put 10 0).put 11 0x1_0FE0).put 12 32 }).modCtx 0 fun c => { c with alive := true }
def asksTabled : State := { asksState with mem := (tabled 0x93 []).mem }

theorem witness_TriggersAndServices_state : asksTabled.sreg 9 = 6 ∧ (asksTabled.sreg 10).toNat = asksTabled.myCtx.val
    ∧ (asksTabled.ctx asksTabled.myCtx).alive = true ∧ (asksTabled.sreg 11).toNat % 4096 + min 32 (asksTabled.sreg 12).toNat ≤ 4096
    ∧ (translate asksTabled .none 0 0x1_0FE0 .write .equinox).toOption = some (tleaf 0x93) := by decide +kernel

theorem witness_TriggersAndServices_request : (∀ k, (awaits .accepted).me.pend ≠ .launch k)
    ∧ liveLaunch (awaits .accepted) (awaits .accepted).myCtx 2 = some 1 ∧ launchFinal (awaits .accepted) 1 = false
    ∧ reqPending (awaits .accepted) 0 = false :=
  ⟨fun _ => by simp [awaits, seated, strand, State.me, State.sp, State.modSp, State.setSp, State.reset, Sp.init, ScpRegs.put],
    by decide, by decide, by decide⟩

/-- Loads from a page that is UN; a REMOTE page, of which 8 bytes end a block of 256. -/
theorem witness_Loads_orders : (leaf 0x1A3).ord = 2
    ∧ (translate (paged 0x1_0000 0 0x1A3) (.sp 0) 0 0x1_0000 .read .scp).toOption = some (leaf 0x1A3)
    ∧ poisoned plain.dev.poison 0 8 = false
    ∧ ((leaf 0x197).remote 0x1_00F8).2.2 % 256 + 8 ≤ 256
    ∧ (let s := paged 0x1_00F8 0 0x197
       remoteBusy s s.cur ((leaf 0x197).remote 0x1_00F8).1 ((leaf 0x197).remote 0x1_00F8).2.2 8 = false
       ∧ (match sendReq (fillTlb s (.sp s.cur) s.myCtx (leaf 0x197)) (.scp s.cur) s.myCtx (ssidScp s.cur) tREAD 0
            ((leaf 0x197).remote 0x1_00F8).1 ((leaf 0x197).remote 0x1_00F8).2.1 ((leaf 0x197).remote 0x1_00F8).2.2 8 32 false [] with
          | .ok _ _ => true
          | _ => false) = true) := by decide +kernel

theorem witness_SrfAccesses_stores :
    (let s := (onSrf 0x1200_0000 true).modSp 0 fun p => { p with
        r := { p.r with win := p.r.win.set 2 { Window.init with valid := true, allow := 1, tacc := 5 } } }
     s.fDecode 0 0x1200_0000 = .window 2 0 ∧ (s.me.r.win[2]).outst ≠ (s.me.r.win[2]).allow
     ∧ (chooseStation s true (ssidWindow s.cur 2) (s.me.r.win[2]).tacc (winAddr (s.me.r.win[2]) 0)).isSome = true
     ∧ (freeTag ((s.dev.txns.filter fun t => t.h.ssid = ssidWindow s.cur 2).map fun t => t.h.tag) 0 4096).isSome = true)
    ∧ (let s := (onSrf 0x1200_0000 true).modSp 0 fun p => { p with
        r := { p.r with win := p.r.win.set 2 { Window.init with valid := true, allow := 1, outst := 1 } } }
       (s.me.r.win[2]).outst = (s.me.r.win[2]).allow) := by decide +kernel

/-- Stores to a page without W; records of stores that fault. -/
def rec0 (va : W64) (c : Cause) (n : W64) : SfRecord := ⟨va, 5, 3, c, n⟩
def recording (d : Bool) (l : List SfRecord) : State :=
  { strand fun p => { p with sto := { p.sto with records := l, delivered := d } } with mem := hosted.mem }

theorem witness_Stores_faults :
    (lookup (paged 0x1_0000 5 0x113) (.sp 0) 0 0x1_0000).toOption = some (leaf 0x113) ∧ (leaf 0x113).ord ≠ 0 ∧ (leaf 0x113).kind ≠ 2
    ∧ checkUse (paged 0x1_0000 5 0x113) (leaf 0x113) .write .scpStg8 = some cPageWriteDenied
    ∧ checkUse (paged 0x1_0000 5 0x103) (leaf 0x103) .write .scp = some cPageWriteDenied ∧ (leaf 0x103).ord = 0
    ∧ (recording true [rec0 0 cPageNotPresent 1]).me.sto.records ≠ []
    ∧ recordFix (recording false [rec0 0 cPageNotPresent 1]) 0 (rec0 0 cPageNotPresent 1) = .no
    ∧ recordFix (recording false [rec0 0x1_0000 cPageNotPresent 1]) 0 (rec0 0x1_0000 cPageNotPresent 1) = .pageIn
    ∧ recordFix { recording false [] with mem := (tabled 0x93 []).mem } 0 (rec0 0x1_0000 cPageNotPresent 1) = .ready
    ∧ (recording false [rec0 0 cPageNotPresent 1]).me.sto.delivered = false := by decide +kernel

/-- The TLB of SP 0 maps 0x10000 without W, and the tables with it. -/
def stale : State := { strand fun p => { p with tlb := [page 0x1_0000 0x113] } with mem := (tabled 0x93 []).mem }

theorem witness_AccessFaults_served :
    repairable { plain with mem := hosted.mem } 0 0x1_0000 cPageNotPresent = true ∧ (0x1_0000 : Nat) < 2 ^ 56
    ∧ (repairable stale 0 0x1_0000 cPageWriteDenied = false ∧ cPageWriteDenied.toNat / 128 = 2 ∧ staleTlb stale (.sp 0) 0 0x1_0000 = true)
    ∧ repairable plain 0 0 cPageNotPresent = false ∧ staleTlb plain (.sp 0) 0 0 = false := by decide +kernel

/-- A GRAPH launch of two tasks of which the second awaits the first, whose gang runs. -/
def failing : State :=
  { seated id [seat1 (some 0), seat1 (some 1)] with
    launches := [{ launch1 1 .running with
      r := { rec1 1 1 with kind := 1 }
      tasks := [⟨0, .running, 0, 1, [1], 1, 2, 3, 4, 0, false⟩, ⟨1, .waiting, 0, 0, [], 1, 2, 3, 4, 0, false⟩] }] }

theorem witness_AccessFaults_failed : cIllegalInstruction ≠ 0 ∧ (failing.sp 0).gang = some 0
    ∧ failing.gangs[0]? = some (gang1 [seat1 (some 0), seat1 (some 1)])
    ∧ (∃ l : Launch, failing.launches[0]? = some l ∧ l.r.kind = 1
        ∧ ∃ x, l.tasks[1]? = some x ∧ x.status = .waiting
            ∧ Relation.TransGen (fun a b => ∃ y, l.tasks[a]? = some y ∧ b ∈ y.succ) 0 1) :=
  ⟨by decide, rfl, rfl, _, rfl, rfl, _, rfl, rfl, .single ⟨_, rfl, by simp⟩⟩

/-! ## Witnesses: numbers -/

/-- 1.5 and -0.25, whose sum 1.25 fits; the greatest FP32 numbers, whose sum does not. -/
theorem witness_KernelFloat_values :
    fp32.finite 0x3FC0_0000 ∧ fp32.finite 0xBE80_0000 ∧ fp32.val 0x3FC0_0000 = 3 / 2 ∧ fp32.val 0xBE80_0000 = -1 / 4
    ∧ fp32.fits (5 / 4) ∧ bf16.fits (5 / 4) ∧ fp16.fits (-1 / 4)
    ∧ fp32.top + pow2 (fp32.qmin + 2 ^ fp32.eb - 4) ≤ fp32.val 0x7F7F_FFFF + fp32.val 0x7F7F_FFFF
    ∧ fp32.val 0xFF7F_FFFF + fp32.val 0xFF7F_FFFF ≤ -(fp32.top + pow2 (fp32.qmin + 2 ^ fp32.eb - 4))
    ∧ intRounds .rne (fp32.val 0x3FC0_0000) 2 ∧ intMin 16 false ≤ 2 ∧ 2 ≤ intMax 16 false
    ∧ fp32.val 0x4000_0000 = (2 : Int) ∧ fp32.val 0x4080_0000 = pow2 2 ∧ (fp32.decode 0x7FC0_0000).isNan = true := by
  refine ⟨⟨?_, ?_⟩, ⟨?_, ?_⟩, ?_, ?_, ⟨?_, ?_⟩, ⟨?_, ?_⟩, ⟨?_, ?_⟩, ?_, ?_, ⟨?_, ?_⟩, ?_, ?_, ?_, ?_, ?_⟩ <;> decide +kernel

theorem witness_KernelMatrix_drain :
    fp32.finite 0x3F80_0001 ∧ bf16.fits (fp32.val 0x3F80_0001) ∧ fp16.fits (fp32.val 0x3F80_0001)
    ∧ fp16.top + pow2 (fp16.qmin + 2 ^ fp16.eb - 4) ≤ fp32.val 0x7F7F_FFFF ∧ (fp32.decode 0x7FC0_0000).isNan = true
    ∧ (fp32.decode 0xFF80_0000).isInf = true := by
  refine ⟨⟨?_, ?_⟩, ⟨?_, ?_⟩, ⟨?_, ?_⟩, ?_, ?_, ?_⟩ <;> decide +kernel

/-- 3.0 under scale 2^1 for E4M3, 60000 for E5M2, and values beyond E4M3; codes of both. -/
theorem witness_KernelPacking_values :
    blockNan 0 (0x80, 0) = false ∧ blockNan 4 (0x80, 0x4D) = false
    ∧ (narrowFmt 0).fits ((NumVal.fin false 3 0).val * pow2 (127 - 0x80)) ∧ (narrowFmt 0).top < (NumVal.fin false 1 20).val
    ∧ (NumVal.fin true 1 20).val < -(narrowFmt 0).top
    ∧ (narrowFmt 1).top + pow2 ((narrowFmt 1).qmin + 2 ^ (narrowFmt 1).eb - 4) ≤ (NumVal.fin false 60000 1).val
    ∧ (narrowNum 4 (0x80, 0x4D) 8).isFin = true ∧ (wideFmt 0).fits ((narrowNum 4 (0x80, 0x4D) 8).val * pow2 1) := by
  refine ⟨?_, ?_, ⟨?_, ?_⟩, ?_, ?_, ?_, ?_, ⟨?_, ?_⟩⟩ <;> decide +kernel

/-- E4M3 ones under scale 1: the dot product of row and column 63 is 64, and the accumulator holds 0. -/
def onesMma : MmaRun :=
  ⟨2, 2, 3, 0, 0, BitVec.ofNat 4096 (leNat (List.replicate 512 127)), BitVec.ofNat 4096 (leNat (List.replicate 512 127)), 0,
    BitVec.ofNat 32768 (leNat (List.replicate 4096 0x38)), BitVec.ofNat 32768 (leNat (List.replicate 4096 0x38))⟩

theorem witness_Landings_values :
    (∀ q ∈ List.range 64, (e4m3.decode (onesMma.capA.extractLsb' (512 * 63 + 8 * q) 8).toNat).isFin = true
      ∧ (onesMma.sa.extractLsb' (8 * (2 * 63 + q / 32)) 8).toNat = 127)
    ∧ fp32.finite (elemAt 32 (KCluster.init.accGet onesMma.acc) (64 * 63 + 63)).toNat ∧ fp32.fits 64
    ∧ (e4m3.decode 0x7F).isNan = true ∧ (fp32.decode 0x7FA0_0000).isSNan = true := by
  refine ⟨?_, ⟨?_, ?_⟩, ⟨?_, ?_⟩, ?_, ?_⟩ <;> decide +kernel

theorem witness_Landings_whole : (0x7F_F000 : Nat) % 4096 = 0 ∧ 0x7F_F000 + 4096 ≤ 2 ^ 23
    ∧ (let e := ((kern fun e => { e with stepNo := 5, infl := [⟨7, 5, .vreg 31 1 vOnes⟩, ⟨7, 4, .vreg 31 2 vOnes⟩] }).sp 0).ke
       e.infl = [⟨7, 5, .vreg 31 1 vOnes⟩, ⟨7, 4, .vreg 31 2 vOnes⟩] ∧ 5 ≤ e.stepNo) := ⟨rfl, by decide, rfl, by decide⟩

/-- Two mma of one slot in the multiplier. -/
theorem witness_KernelMatrix_orels :
    let l : List (Nat × MmaRun) := [(9, ⟨2, 2, 0, 31, 0, 0, 0, 0, 0, 0⟩), (17, ⟨8, 8, 0, 0, 31, 0, 0, 1, 0, 0⟩)]
    let s := multiplying.modKe 0 fun e => { e with infl := l.map fun x => ⟨3, x.1, .mma x.2⟩ }
    s.me.ke.infl = l.map (fun x => ⟨3, x.1, .mma x.2⟩) ∧ s.me.ke.stepNo = 7
    ∧ ∀ x : ClId, s.me.ke.cl[x].opmSt[31] = .owned ↔ x = 3 := by decide +kernel

/-- A plain 8-byte stg, or one with release order, of s2 to the last unit of a block of a REMOTE page. -/
def sendsTo (attr : Nat) (typ : BitVec 6) (w : Issuer) (d : List Byte) : Bool :=
  let s := fillTlb (paged 0x1_00F8 5 attr) (.sp 0) 0 (leaf attr)
  let r := (leaf attr).remote 0x1_00F8
  match sendReq (s.modMe fun p => { p with sto := { p.sto with seq := p.sto.seq + 1 } }) w 0 (ssidScp 0) typ 0 r.1 r.2.1 r.2.2 8
      (s.me.r.slk[(0 : Fin 4)]) false d with
  | .ok _ _ => true
  | _ => false

theorem witness_Stores_remote :
    (∀ attr ∈ [0x197, 0x187], (leaf attr).kind = 1 ∧ ((leaf attr).remote 0x1_00F8).2.2 % 256 + 8 ≤ 256
      ∧ (translate (paged 0x1_00F8 5 attr) (.sp 0) 0 0x1_00F8 .write .scpStg8).toOption = some (leaf attr)
      ∧ remoteBusy (paged 0x1_00F8 5 attr) 0 ((leaf attr).remote 0x1_00F8).1 ((leaf attr).remote 0x1_00F8).2.2 8 = false
      ∧ sendsTo attr 4 (.scp 0) (leBytes 8 5) = true)
    ∧ (leaf 0x197).ord ≠ 0 ∧ (leaf 0x187).ord = 0 ∧ storeCount (paged 0x1_00F8 5 0x197) 0 < 16
    ∧ sendsTo 0x197 3 (.weak 0 ⟨0x1_00F8, 5, 3, 0, 1⟩) (leBytes 8 5) = true ∧ sendsTo 0x197 6 (.scp 0) (leBytes 8 5) = true
    ∧ (let s := (paged 0x1_00F8 5 0x187).modMe fun p => { p with pend := .remote 7 (some (.data [])) (leBytes 8 5) }
       s.me.pend = .remote 7 (some (.data [])) (leBytes 8 5) ∧ 8 ≤ (leBytes 8 5).length
       ∧ (translate s (.sp 0) 0 0x1_00F8 .write .scpStg8).toOption = some (leaf 0x187)) := by decide +kernel

theorem witness_Atomics_remote :
    (translate (paged 0x1_00F8 5 0x197) (.sp 0) 0 0x1_00F8 .amo .scp).toOption = some (leaf 0x197)
    ∧ (let s := (paged 0x1_00F8 5 0x197).modMe fun p => { p with pend := .remote 7 (some (.data (leBytes 8 9))) [] }
       s.me.pend = .remote 7 (some (.data (leBytes 8 9))) []
       ∧ (translate s (.sp 0) 0 0x1_00F8 .amo .scp).toOption = some (leaf 0x197)) := by decide +kernel

/-- s1 is an address in an APERTURE page, s2 names template `v`; the table at 0x30000 has one template. -/
def aperture (x v : W64) : State :=
  strand fun p => { p with
    r := { (p.r.put 1 x).put 2 v with ttbase := 0x3_0000 }, tlb := [page 0x1_0000 0x19B, page 0x3_0000 0x193] }

theorem witness_Stores_aperture :
    (∀ s ∈ [aperture 0x1_F000 0, aperture 0x1_F000 1, aperture 0x1_F008 0],
      (translate s (.sp 0) 0 (s.sreg 1).toNat .write .scpStg8).toOption = some (leaf 0x19B) ∧ s.me.sto.records = []
      ∧ s.me.sto.weak = [] ∧ weakTxns s s.cur = [] ∧ s.me.pend = .none)
    ∧ (leaf 0x19B).kind = 2 ∧ (0x1_F000 : Nat) % 4096 = 0 ∧ (0x1_F008 : Nat) % 4096 ≠ 0
    ∧ templateIn (aperture 0x1_F000 0).me.r.ttbase 0 = true ∧ templateIn (aperture 0x1_F000 1).me.r.ttbase 1 = false
    ∧ (let s := fillTlb (aperture 0x1_F000 0) (.sp 0) 0 (leaf 0x19B)
       let lt := (page 0x3_0000 0x193).leaf
       (translate s (.sp 0) 0 (templateAddr s.me.r.ttbase 0) .read .scp).toOption = some lt ∧ lt.kind = 0
       ∧ poisoned s.dev.poison (lt.pa (templateAddr s.me.r.ttbase 0)) 64 = false) := by decide +kernel

theorem witness_KernelJumps_out :
    let k : KRun := { run1 with entry := 0, blk := { run1.blk with extent := 4096 }, kpc := 4095 }
    let e := (strand fun p => { p with ke := { p.ke with run := some k, rstack := [4096] } }).me.ke
    e.infl = [] ∧ e.run = some k ∧ e.rstack = [(4096 : BitVec 13)] ∧ ¬ (4096 : BitVec 13).toNat < k.entry.toNat + k.blk.extent.toNat
    ∧ k.entry.toNat ≤ (0 : BitVec 12).toNat ∧ (0 : BitVec 12).toNat < k.entry.toNat + k.blk.extent.toNat := by decide +kernel

/-- A strand whose records have been delivered and not yet replayed. -/
theorem witness_StepRuns_replays :
    let s := turn (.scp 0) (recording true [rec0 0x1_0000 cPageNotPresent 1])
    s.dev.powered = true ∧ (s.sp 0).run = .running ∧ (s.sp 0).sto.delivered = true ∧ (s.sp 0).sto.records ≠ [] := by decide +kernel

/-- With no firmware slot accepted; otherwise. -/
theorem witness_StepRuns_boot :
    (State.reset.modDev fun d => { d with boot := { d.boot with status := 2 } }).dev.boot.status = 2
    ∧ (State.reset.eqx 0).status = .active ∧ State.reset.dev.boot.status ≠ 2 := by decide +kernel
/-! ## Witnesses: commands, requests and replies -/

theorem witness_StepRuns_turns :
    (let s := turn (.serve 0 0 0) (served 3 (cmdOf 1 2 3 4) commanded)
     (s.eqx 0).status = .active ∧ nextPacket { beginTurn s with core := 0 } 0 0 = some (fetchedOf 3 (cmdOf 1 2 3 4))
     ∧ packetInstr (fetchedOf 3 (cmdOf 1 2 3 4)) = some (.memMap (cmdOf 1 2 3 4))) := by decide +kernel

theorem witness_MappingCommands_page (c : Cmd) (h : c = cmdOf 0x1_1000 0x1000 0x190 0) :
    TablePath (acting commanded c 3).mem 0 0x1_1000 0 0 0 := by
  subst h; exact ⟨by decide +kernel, by decide +kernel, by decide +kernel, by decide, by decide⟩

theorem witness_MappingCommands_entries :
    memNat (acting commanded (cmdOf 0x1_1000 0x1000 0x190 0) 3).mem (0 + 8 * tableIdx 0x1_1000 3) 8 = 0
    ∧ findFrame (acting commanded (cmdOf 0x1_1000 0x1000 0x190 0) 3) none 0x1000 = some 0x3_1000
    ∧ arg3Ok 0x190 0 1 = true ∧ arg3Ok 0x194 0x800 1 = true ∧ arg3Ok 0x19C 0 1 = true ∧ (0x19C : Nat) / 4 % 4 = 3
    ∧ (let e := memNat (acting commanded (cmdOf 0x1_0000 0x1000 0 0) 4).mem (0 + 8 * tableIdx 0x1_0000 3) 8
       e % 4 = 3 ∧ leafSize 3 e = some 0x1000) := by decide +kernel

theorem witness_MappingCommands_path : TablePath (acting commanded (cmdOf 0x1_0000 0x1000 0 0) 4).mem 0 0x1_0000 0 0 0 :=
  ⟨by decide +kernel, by decide +kernel, by decide +kernel, by decide, by decide⟩

/-- Context 0 has a gang on SP 0, its queue 0 has fetched the command `c` of code `k`. -/
def ganged (c : Cmd) (k : BitVec 16) : State :=
  { served k c commanded with gangs := [gang1 [seatRb]], launches := [launch1 1 .running] }

theorem witness_ControlCommands_gangs :
    CmdServed 16 (cmdOf 0 2047 0 0) (ganged (cmdOf 0 2047 0 0) 16) (fetchedOf 16 (cmdOf 0 2047 0 0))
    ∧ residentGangs ((ganged (cmdOf 0 2047 0 0) 16).working (fetchedOf 16 (cmdOf 0 2047 0 0)) (cmdOf 0 2047 0 0) 16) 0 = [0]
    ∧ gangNoRb (ganged (cmdOf 0 2047 0 0) 16) (gang1 [seatRb]) = false
    ∧ CmdServed 14 (cmdOf 1 0 0 0) (ganged (cmdOf 1 0 0 0) 14) (fetchedOf 14 (cmdOf 1 0 0 0))
    ∧ liveLaunch ((ganged (cmdOf 1 0 0 0) 14).working (fetchedOf 14 (cmdOf 1 0 0 0)) (cmdOf 1 0 0 0) 14) 0 1 = some 0
    ∧ jobOf ((ganged (cmdOf 1 0 0 0) 14).working (fetchedOf 14 (cmdOf 1 0 0 0)) (cmdOf 1 0 0 0) 14) [0] = [0] :=
  ⟨⟨by decide +kernel, by decide⟩, by decide +kernel, by decide +kernel, ⟨by decide +kernel, by decide⟩, by decide +kernel,
    by decide +kernel⟩

/-- The kick units of context 0 begin at 0x10000. -/
def kicked : State := roce.modCtx 0 fun c => { c with tabA := { KickTable.init with kick := 0x1_0000 } }

theorem witness_RdmaRequests_kick :
    rkeyRegion kicked ⟨0, 7, 0, 0x1_0000, 0⟩ 0x1FFF 0x1_0FF8 8 Region.wr = some region1
    ∧ (0x1_0FF8 : Nat) = (kicked.ctx 0).kick.toNat + 8 * (511 : BitVec 12).toNat ∧ slotOf kicked 0 511 = none
    ∧ okAnd (gWrite kicked .none 0 .outside 0x1_0FF8 (leBytes 8 1)) (fun _ => true) = true
    ∧ slotOf (kicked.setSlot 63 ⟨{ qcb1 with qid := 511 }, 0⟩) 0 511 = some 63
    ∧ qpOf roce 0 = some ⟨0, 7, 0, 0x1_0000, 0⟩ ∧ (56 : Nat) + 8 ≤ 64 := by decide +kernel

/-- A READ of the last line of the SRF, which is empty, or full. -/
def lineAt : SahatHdr := hdr 1 0x1FFF 128 0x100_0000_007F_FF80
def fullSrf : State := srfKeyed.modSp 0 fun p => { p with fe := BitVec.allOnes 65536 }
def heldRead (s : State) : State := s.modDev fun d => { d with held := [⟨lineAt, [], 0, 1000000, true, true⟩] }

theorem witness_SahatRequests_held :
    arrives srfKeyed lineAt = true ∧ keyed? srfKeyed lineAt [] = 0 ∧ ordBlocked srfKeyed lineAt = false
    ∧ (srfKeyed.sp 0).full 0x7F_FF80 = false
    ∧ (let x := { lineAt with ord := true }
       let y := { hdr 3 0x1FFF 8 0x1_0FF8 with ord := true }
       ordBlocked (roce.modDev fun d => { d with held := [⟨x, [], 0, 1000000, true, true⟩] }) y = true
       ∧ keyed? roce y (leBytes 8 1) = 0)
    ∧ (heldRead fullSrf).dev.held[0]? = some ⟨lineAt, [], 0, 1000000, true, true⟩ ∧ lineAt.ord = false
    ∧ regionOf (heldRead fullSrf) lineAt.key = some { region1 with srf := true, base := 0, lenb := 0x80_0000, glaunch := 1 }
    ∧ lineAt.src ≠ (heldRead fullSrf).dev.accId ∧ (heldRead fullSrf).dev.lanes[(3 : Fin 16)] ≠ 0
    ∧ ((heldRead fullSrf).sp 0).full 0x7F_FF80 = true ∧ ((heldRead fullSrf).sp 0).full 0x7F_FFFF = true := by decide +kernel

theorem witness_SahatReplies_stores :
    replyBad (awaited 3 (.weak 0 (rec0 0x1_0000 0 1)) .none 0) (reply 8 0 1) 8 [] = false
    ∧ replyBad (awaited 3 (.weak 0 (rec0 0x1_0000 0 1)) .none 0) (reply 9 cKeyRange 1) 9 [] = false
    ∧ ((awaited 3 (.weak 0 (rec0 0x1_0000 0 1)) .none 0).dev.txns.find? fun t => t.h.ssid = 0 && t.h.tag = 9 && t.h.seq = 1).isSome
        = true
    ∧ replyBad (awaited 6 (.scp 0) (.remote 9 none []) 0) (reply 7 0 8) 7 (leBytes 8 1) = false := by decide +kernel

/-! ## Witnesses: scheduling -/

/-- A running GRID launch of 2 by 1 tiles with the range [lo, 2) at walker 15 of die 3. -/
def tiling (lo : Nat) : State :=
  { ranged 1 lo 2 with launches := [{ launch1 1 .running with r := { rec1 1 1 with x := 2, y := 1, z := 1, w := 1 } }] }

theorem witness_Dispatching_tiles :
    decision (tiling 0) 3 = .run (.walker 15 0) ∧ placementOk (tiling 0) 3 1 [66] = true
    ∧ (let r := { rec1 1 1 with x := 2, y := 1, z := 1, w := 1 }
       r.nextTile 2 2 0 = some (0, ⟨0, 0, 0, 0⟩) ∧ r.tileLeft 1 2 = true ∧ r.nextTile 2 1 1 = some (1, ⟨1, 0, 0, 0⟩))
    ∧ decision (tiling 1) 3 = .run (.walker 15 0)
    ∧ capacity (ranged 1 0 2) 1 0 ≠ 0 ∧ capacity { ranged 1 0 2 with sps := (ranged 1 0 2).sps.map fun p => { p with retired := true } } 1 0 = 0
    ∧ (∀ a b c, (State.reset.die 3).walkers[(15 : Fin 16)] ≠ .active a b c) := by
  refine ⟨?_, ?_, ?_, ?_, ?_, ?_, fun a b c h => absurd (h.symm.trans (show _ = Walker.free by decide +kernel)) (by simp)⟩
    <;> decide +kernel

def granted : SplitGrant := ⟨0, 0, some (0, 1, 2)⟩
def grantedAway : State :=
  ((ranged 1 0 2).modDev fun d => { d with grants := [granted] }).modCtx 0 fun c => { c with preempt := some ⟨0, false⟩ }

theorem witness_Dispatching_preempted :
    grantedAway.dev.grants.find? (fun g => g.die = 0 && g.walker = 0) = some granted ∧ (grantedAway.ctx 0).preempt.isSome = true
    ∧ grantedAway.dev.grants.erase granted = [] := by decide +kernel

theorem witness_Dispatching_restored :
    let s := { (graphed 0 0) with dies := State.reset.dies }.modCtx 0 fun c => { c with rebuild := true, savedPool := [(3, 0)] }
    (s.ctx 0).preempt = none ∧ (s.ctx 0).savedPool ≠ [] ∧ (s.ctx 0).rebuild = true
    ∧ ∃ m x, s.launches[0]? = some m ∧ m.ctx = 0 ∧ m.phase = .running ∧ (∃ e : DieId, capacity s m.r.gsize e ≠ 0)
        ∧ m.tasks[0]? = some x ∧ x.status = .ready :=
  ⟨by decide +kernel, by decide +kernel, by decide +kernel, _, _, rfl, rfl, rfl, ⟨0, by decide +kernel⟩, rfl, rfl⟩

/-- Launch 1 waits in the pool for launch 0, which its strand pushed before it. -/
def pushedTwo : State :=
  let l : Launch := { launch1 1 .accepted with src := .pool 0, pusher := some (0, 0) }
  { State.reset.modDie 0 fun x => { x with pool := [1] } with launches := [l, l] }

theorem witness_Dispatching_ordered : (pushedTwo.die 0).pool = [1] ∧ ((0 : Nat) < 1)
    ∧ (∃ l m, pushedTwo.launch? 1 = some l ∧ pushedTwo.launches[0]? = some m ∧ m.pusher.isSome = true ∧ m.pusher = l.pusher
        ∧ m.phase = .accepted ∧ m.gone = false) :=
  ⟨by decide +kernel, by decide, _, _, rfl, rfl, rfl, rfl, rfl, rfl⟩

/-- A gang of one FAULTED, or BLOCKED, seat whose record stands at 0x10000. -/
def resting (st : StStatus) (m : List Host.Cell) : State := { fresh m with gangs := [gang1 [{ seatNew with status := st }]] }

theorem witness_GangsComeAndGo_records :
    ([seat1 (some 0)].filterMap Seat.sp).Nodup
    ∧ okAnd (gRead (fresh []) .none 0 .device 0x1_0000 64) (fun b => field b 8 1 = 0) = true
    ∧ okAnd (gRead (fresh [(0x2_0008, 10)]) .none 0 .device 0x1_0000 64) (fun b => field b 8 1 = 10) = true
    ∧ (∃ q ∈ (gang1 [{ seatNew with status := .blocked }]).seats, q.status = .blocked)
    ∧ (seatRepaired (resting .faulted []) (gang1 [{ seatNew with status := .faulted }]) { seatNew with status := .faulted } = true)
    ∧ ((0x1_0000 : W64).toNat % 64 = 0)
    ∧ (translate (resting .faulted []) .none 0 0x1_0000 .write .device).toOption = some (tleaf 0x93) ∧ (tleaf 0x93).kind = 0 := by
  decide +kernel

/-- The host has been asked for the page at 0x10000 of context 1 at time 0. -/
def awaitsPage : State := hosted.modDev fun d => { d with pageAsks := [⟨1, 0x1_0000, some (0, 4000000), false⟩] }

theorem witness_PagesAndShootdowns_asked :
    hostEntry awaitsPage 1 0x1_0FFF = some (0x80, 0x2_019E, 0x1000) ∧ askSent awaitsPage 1 0x1_0000 0x1000 = some (0, 4000000)
    ∧ awaitsPage.time ≤ 0 + 4000000 ∧ 0 + 4000000 < { awaitsPage with time := 4000001 }.time
    ∧ askSent awaitsPage 0 0x1_0000 0x1000 = none ∧ (0x2_019E : Nat) % 4 = 2 ∧ 0x2_019E / 2 ^ 2 % 4 = 3 ∧ 0x2_019E / 2 ^ 4 % 4 ≠ 3
    ∧ 0x2_019E / 2 ^ 9 % 8 = 0 ∧ 0x2_019E / 2 ^ 6 % 2 = 0
    ∧ findFrame (askOver awaitsPage 1 0x1_0000 0x1000) none 0x1000 = some 0x3_0000
    ∧ (∀ k ∈ [0 + 8 * tableIdx 0x1_0000 0, 0 + 8 * tableIdx 0x1_0000 1, 0 + 8 * tableIdx 0x1_0000 2, 0 + 8 * tableIdx 0x1_0000 3],
        k + 8 ≤ 0x3_0000)
    ∧ (askOver awaitsPage 1 0x1_0000 0x1000).dev.results = [] := by decide +kernel

theorem witness_PagesAndShootdowns_path : TablePath (askOver awaitsPage 1 0x1_0000 0x1000).mem 0 0x1_0000 0 0 0 :=
  ⟨by decide +kernel, by decide +kernel, by decide +kernel, by decide, by decide⟩

/-- SP 0's strand, on seat 0 of context 1, waits for that page, and all frames are in use. -/
def awaitsRefusal : State :=
  let p (q : Sp) : Sp := { q with
    id := { q.id with ctx := 1 }, gang := some 0, run := .stopped (.fault cPageNotPresent), pend := .repair cPageNotPresent 0x1_0FF8 }
  { awaitsPage.modSp 0 p with gangs := [{ gang1 [seat1 (some 0)] with ctx := 1 }] }

theorem witness_PagesAndShootdowns_refused :
    (awaitsRefusal.sp 0).id.ctx = 1 ∧ (awaitsRefusal.sp 0).gang = some 0 ∧ (awaitsRefusal.sp 0).id.seat.toNat = 0
    ∧ (awaitsRefusal.sp 0).run = .stopped (.fault cPageNotPresent) ∧ (awaitsRefusal.sp 0).pend = .repair cPageNotPresent 0x1_0FF8
    ∧ (∀ i, i ≠ 0 → (awaitsRefusal.sp i).id.ctx ≠ 1 ∨ (awaitsRefusal.sp i).run = .idle)
    ∧ pageIn (awaitsPage.modDev fun d => { d with frames := [(0, hbmTop)] }) 0x2_019E 0x1000 1 0x1_0000 [1] = none := by
  decide +kernel

/-- Two records of one page, both ready. -/
def twoRecords : State :=
  { strand fun p => { p with sto := { p.sto with records := [rec0 0x1_0008 cPageNotPresent 2, rec0 0x1_0000 cPageNotPresent 1]
                                                 delivered := true } } with
    mem := (tabled 0x93 []).mem }

theorem witness_PagesAndShootdowns_replay :
    (twoRecords.sp 0).sto.delivered = true ∧ (∀ r ∈ (twoRecords.sp 0).sto.records, recordFix twoRecords 0 r = .ready)
    ∧ (translate twoRecords .none 0 0x1_0000 .write .scp).toOption = some (tleaf 0x93) ∧ (tleaf 0x93).kind ≠ 1
    ∧ (translate (twoRecords.physWrite ((tleaf 0x93).pa 0x1_0000) (leBytes 8 5)) .none 0 0x1_0008 .write .scp).toOption
        = some (tleaf 0x93)
    ∧ unitBusy plain (.die 3) = false
    ∧ ((plain.modDev fun d => { d with shoots := [{ shot with left := [.die 3] }] }).dev.shoots.filter fun z =>
        z.left.contains (TlbUnit.die 3)) = [{ shot with left := [.die 3] }] := by decide +kernel

/-! ## Witnesses: copies, Dealer, reliability -/

/-- Channel 2 moves a template of `kind` of one row of 256 bytes between 0x10000 and line 255. -/
def moveT (kind : BitVec 4) (consume : Bool) (src dst : W64) : Template :=
  { parseTemplate [] with
    kind := kind, consume := consume, cnt := #v[256, 1, 1, 1], sbase := src, dbase := dst, sstr := Vector.replicate 3 0
    dstr := Vector.replicate 3 0, resOk := true }
def moveR (t : Template) (pos : Nat) (adds : List (Nat × Nat × List Byte)) : CopyRun :=
  ⟨⟨0, some 5, 0, 0, 0, .copy 0 0 0 2 5⟩, some t, pos, .none, [], [], .gathering, none, [], adds, none⟩
def moving (r : CopyRun) (full : Bool) : State :=
  strand fun p => { p with
    alloc := 0x8000, fe := if full then BitVec.allOnes 65536 else 0, tlb := [page 0x1_0000 0x193]
    str := { p.str with chans := p.str.chans.set 2 { Channel.init with run := some r } } }

theorem witness_StreamsRun_load :
    let t := moveT 0 false 0x1_0000 0x7F00
    let s := moving (moveR t 128 []) false
    (s.sp 0).str.chans[(2 : Fin 16)].run = some (moveR t 128 []) ∧ t.bytes = 256 ∧ t.c 0 * t.eb = 256
    ∧ (translate s (.sp 0) 0 0x1_0080 .read (.copy false)).toOption = some (leaf 0x193) ∧ (leaf 0x193).kind = 0
    ∧ s.fDecode 0 0x7F80 = .srf 0 0x7F80 ∧ min (256 - 128) (128 - 0x7F80 % 128) ≤ 256 - 0x1_0080 % 256
    ∧ poisoned s.dev.poison ((leaf 0x193).pa 0x1_0080) 128 = false := by decide +kernel

theorem witness_StreamsRun_store :
    let t := moveT 1 true 0x7F00 0x1_0000
    let s (f : Bool) := moving (moveR t 0 []) f
    (s true).fDecode 0 0x7F00 = .srf 0 0x7F00 ∧ ((s true).sp 0).full 0x7F00 = true ∧ ((s false).sp 0).full 0x7F00 = false
    ∧ (translate (s true) (.sp 0) 0 0x1_0000 .write (.copy false)).toOption = some (leaf 0x193)
    ∧ (0x1_0000 + min (min 256 128) (min 256 256)) % 8 = 0 ∧ (moveR t 0 []).ahead = [] := by decide +kernel

theorem witness_StreamsRun_adds :
    let t := moveT 4 false 0x7F00 0x1_0000
    let r := moveR t 256 [(0, 0x2_0000, leBytes 4 0x3F80_0000)]
    ((moving r true).sp 0).str.chans[(2 : Fin 16)].run = some r ∧ t.bytes ≤ r.pos ∧ (leBytes 4 0x3F80_0000).length = 4 := by
  decide +kernel

/-- The choice's expert is bad, or has room, in the scatter of a row of 64 bytes whose slot is full-sized at base 0. -/
def scattering (e : Expert) (x : DealOut) : DealRun := { dealRun .scatter x with experts := [e] }
def roomy : Expert := { expert1 with ent := { expert1.ent with acc := 5, cap := 4 } }

theorem witness_DealerSteps_send :
    let r := scattering roomy (.counted 3)
    let s := dealer1 [] (some r) []
    ({ expert1 with bad := some (3, cKeyStale) } : Expert).bad = some (3, cKeyStale)
    ∧ roomy.bad = none ∧ roomy.base = some 0 ∧ (0 : W64).toNat + 3 < roomy.ent.cap.toNat ∧ r.op.d.rowb ≠ 0
    ∧ (roomy.ent.base.toNat + 3 * roomy.ent.rstr.toNat) % 256 + r.op.d.rowb.toNat ≤ 256
    ∧ dataAnd (dealRead s 3 r.op r.op.d.rows.toNat 64) (fun b t =>
        match sendReq t (.scatter 3 0) 0 (ssidDealer 3) tPWR 0 5 0x1FFF (roomy.ent.base.toNat + 3 * roomy.ent.rstr.toNat) 64 0 false
          (b.take 64) with
        | .ok _ w => (w.die 3).dealer.run = some r
        | _ => false) = true := by decide +kernel

theorem witness_DealerSteps_answer :
    let r := scattering roomy (.sent 3 1 none)
    ((dealer1 [] (some r) []).die 3).dealer.run = some r ∧ r.choices[0]? = some ⟨0, 0, .sent 3 1 none⟩ ∧ r.experts[0]? = some roomy
    ∧ roomy.bad = none ∧ (op1 true).d.t.toNat ≤ { DealRun.init (op1 true) .gather with next := 1 }.next := by decide +kernel

theorem witness_StreamsRun_entry :
    let t := { moveT 2 false 0x1_0000 0x7F00 with cnt := #v[128, 2, 1, 1], idx := 0x7E7C }
    let s (f : Bool) := moving (moveR t 128 []) f
    t.bytes = 256 ∧ t.idxOf 1 = some 1 ∧ (t.idx.toNat + 4 * 1) % 2 ^ 64 = 0x7E80 ∧ (moveR t 128 []).ent = none
    ∧ (s true).fDecode 0 0x7E80 = .srf 0 0x7E80 ∧ ((s true).sp 0).full 0x7E80 = true ∧ ((s false).sp 0).full 0x7E80 = false
    ∧ leNat (((s true).sp 0).fBytes 0x7E80 4) = 0 ∧ t.src 0 1 0 = 0x1_0000 ∧ t.dst 1 0 = 0x7F00
    ∧ (translate (s true) (.sp 0) 0 0x1_0000 .read (.copy false)).toOption = some (leaf 0x193)
    ∧ (s true).fDecode 0 0x7F00 = .srf 0 0x7F00
    ∧ ({ moveT 5 false 0x1_0000 0x7F00 with cnt := #v[128, 1, 2, 1] } : Template).idxOf 1 = some 1
    ∧ ({ moveT 3 false 0x7F00 0x1_0000 with cnt := #v[128, 2, 1, 1] } : Template).idxOf 1 = some 1
    ∧ ({ moveR t 130 [] with ent := some (1, 7) } : CopyRun).ent = some (1, 7) := by decide +kernel

theorem witness_StreamsRun_net :
    let t := moveT 6 false 0x7F00 0x1_0000
    let r (n : Nat) (m : NetMsg) : CopyRun := { moveR t n [] with net := if n = 0 then [] else leBytes 8 1, msg := m }
    let s (n : Nat) (m : NetMsg) := moving (r n m) true
    (s 0 .gathering).fDecode 0 0x7F00 = .srf 0 0x7F00 ∧ ((s 0 .gathering).sp 0).full 0x7F00 = true
    ∧ (0x1_0000 + min 256 128) % 8 = 0
    ∧ ((s 256 .gathering).sp 0).str.chans[(2 : Fin 16)].run = some (r 256 .gathering) ∧ t.bytes ≤ 256
    ∧ (r 256 .sent).msg = .sent ∧ (r 256 .sent).net ≠ [] ∧ (r 256 .sent).stop = none := by decide +kernel

theorem witness_DealerSteps_landings :
    let r := scattering roomy (.sent 3 1 (some (2, cKeyStale)))
    r.choices[0]? = some ⟨0, 0, .sent 3 1 (some (2, cKeyStale))⟩ ∧ r.experts[0]? = some roomy
    ∧ (some ((2 : BitVec 4), cKeyStale)).or roomy.bad = some (2, cKeyStale)
    ∧ (none : Option (BitVec 4 × Cause)).or { expert1 with bad := some (3, cFabricTimeout) }.bad = some (3, cFabricTimeout) := by
  decide +kernel

theorem witness_FabricTimeouts_chip :
    let p : ChipPkt := ⟨63, some (0x4300, 1), 0⟩
    (0 : Nat) < 1 ∧ plain.dev.chip = [] ∧ (plain.modDev fun d => { d with chip := [p] }).dev.chip = [p] ∧ p.slack = 0 := by
  decide +kernel

theorem witness_SahatReplies_overdue :
    let s := awaited 3 (.weak 0 (rec0 0x1_0000 0 1)) .none 0
    replyBad s (reply 8 0 1) 8 [] = false ∧ (reply 8 0 1).slack = 0 ∧ (s.ctx 0).slkctl.getLsbD 0 = false
    ∧ ((s.dev.txns.find? fun t => t.h.ssid = 0 && t.h.tag = 9 && t.h.seq = 1).map Txn.ctx) = some 0 := by decide +kernel

theorem witness_ControlCommands_registers :
    CmdServed 17 (cmdOf 1 0 64 0) (served 17 (cmdOf 1 0 64 0) commanded) (fetchedOf 17 (cmdOf 1 0 64 0))
    ∧ CmdServed 17 (cmdOf 1 0 65 0) (served 17 (cmdOf 1 0 65 0) commanded) (fetchedOf 17 (cmdOf 1 0 65 0))
    ∧ CmdServed 17 (cmdOf 2 3 0xF_FFFF 0) (served 17 (cmdOf 2 3 0xF_FFFF 0) commanded) (fetchedOf 17 (cmdOf 2 3 0xF_FFFF 0))
    ∧ CmdServed 17 (cmdOf 2 3 0x10_0000 0) (served 17 (cmdOf 2 3 0x10_0000 0) commanded) (fetchedOf 17 (cmdOf 2 3 0x10_0000 0))
    ∧ CmdServed 17 (cmdOf 3 0 0x100_0000 0) (served 17 (cmdOf 3 0 0x100_0000 0) commanded) (fetchedOf 17 (cmdOf 3 0 0x100_0000 0))
    ∧ CmdServed 17 (cmdOf 5 0 0x1000 0) (served 17 (cmdOf 5 0 0x1000 0) commanded) (fetchedOf 17 (cmdOf 5 0 0x1000 0)) :=
  ⟨⟨by decide +kernel, by decide⟩, ⟨by decide +kernel, by decide⟩, ⟨by decide +kernel, by decide⟩, ⟨by decide +kernel, by decide⟩,
    ⟨by decide +kernel, by decide⟩, ⟨by decide +kernel, by decide⟩⟩

theorem witness_ControlCommands_boot :
    State.reset.dev.boot.status ≠ 2 ∧ ({ Boot.init with status := 2 } : Boot).status = 2 := by decide +kernel

theorem witness_ContextCommands_self :
    CmdServed 2 (cmdOf 0 0 0 0) (served 2 (cmdOf 0 0 0 0) commanded) (fetchedOf 2 (cmdOf 0 0 0 0))
    ∧ (cmdOf 0 0 0 0).ctx = 0 ∧ ((acting commanded (cmdOf 0 0 0 0) 2).ctx 0).alive = true :=
  ⟨⟨by decide +kernel, by decide⟩, rfl, by decide +kernel⟩

theorem witness_ObjectCommands_regions :
    CmdServed 9 (cmdOf 0x7F_FFFF 0x80_0000 30 0x1_0000_0001) (served 9 (cmdOf 0x7F_FFFF 0x80_0000 30 0x1_0000_0001) commanded)
      (fetchedOf 9 (cmdOf 0x7F_FFFF 0x80_0000 30 0x1_0000_0001))
    ∧ (freeRegion (acting commanded (cmdOf 0x7F_FFFF 0x80_0000 30 0x1_0000_0001) 9)).isSome = true
    ∧ (freeRegion (acting commanded (cmdOf 0 0x100_0000_0000_0000 28 0) 9)).isSome = true
    ∧ (cmdOf 0x7F_FFFF 0x80_0000 30 0).a2.getLsbD 1 = true ∧ (cmdOf 0 0 28 0).a2.getLsbD 1 = false
    ∧ inDevArea 0 0xFF_FFFF = false :=
  ⟨⟨by decide +kernel, by decide⟩, by decide +kernel, by decide +kernel, by decide, by decide, by decide +kernel⟩

/-- What a dispatch of the record at 0x20000 comes to, as a number: 0 to 3 its status, 4 rejected, 5 a pause. -/
def dispatchesAs (s : State) : Nat :=
  match recordLaunch s 0 (parseLRec (s.physRead 0x2_0000 128)) with
  | .error _ => 9
  | .ok (li, u) =>
    match dispatchLaunch u li with
    | .ok _ => 0
    | .noWalker => 1
    | .predWait => 2
    | .predFailed _ => 3
    | .rejected _ _ _ => 4
    | .pause _ _ => 5

/-- The record names launch 2 as its predecessor, which has the phase `ph`. -/
def following (ph : LPhase) : State :=
  let m := recordBytes 1 ++ [(0x2_0001, 0x80), (0x2_0050, 2)]
  { coded ((based m).modEqx 0 fun k => { k with x := k.x.set 10 0x2_0000 }) with launches := [launch1 2 ph] }

theorem witness_EquinoxInstructions_dispatch_ends :
    dispatchesAs dispatching = 0 ∧ dispatchesAs (following .running) = 2 ∧ dispatchesAs (following .failed) = 3
    ∧ dispatchesAs { dispatching with sps := dispatching.sps.map fun p => { p with retired := true } } = 4
    ∧ dispatchesAs (coded (tabled 0x9E [(0x2_0000, 1), (0x2_0008, 1), (0x2_0010, 1), (0x2_0014, 1), (0x2_0018, 1), (0x2_0032, 1),
        (0x2_0070, 128)])) = 5
    ∧ (let l := { launch1 1 .failed with r := parseLRec (dispatching.physRead 0x2_0000 128) }
       let s := { dispatching.modEqx 0 fun k => { k with disp := some 0 } with launches := [l] }
       s.eqxMe.disp = some 0 ∧ s.launches[0]? = some l ∧ l.ctx = 0 ∧ l.phase = .failed) := by decide +kernel

theorem witness_EquinoxInstructions_served :
    let s := (eq 63 0 { qcb1 with state := .active, prio := 7 } []).setSlot 0 ⟨{ qcb1 with state := .active, prio := 0 }, 0⟩
    nextServed s = some 63 ∧ (s.slot 0).q.state = .active
    ∧ (let u := eq 63 0x40 qcb1 []
       (u.slot 63).q.prod ≠ (u.slot 63).q.head
       ∧ ((u.setSlot 63 ⟨qcb1, 999⟩).slot 63).retry = 999
       ∧ okAnd (gRead u .none 0 .equinox 0x1_0000 64) (fun b => packetTorn b 1) = true
       ∧ okAnd (gRead { u with mem := [] } .none 0 .equinox 0x1_0000 64) (fun _ => true) = false) := by decide +kernel

theorem witness_EquinoxInstructions_interrupted :
    let s := (eq 1 1 qcb1 []).modEqx 0 fun k => { k with mie := true, ie := 0x800, irq := true }
    s.eqxMe.interrupted = true ∧ (s.xreg 11).toNat ≤ 1 ∧ s.xreg 10 ≠ 0 ∧ s.ctxSum &&& s.xreg 10 = 0
    ∧ ((eq 0x1_0000 7 qcb1 []).xreg 10).toNat % 8 = 0 := by decide +kernel

theorem witness_EccErrors_counted : (0xBF_FFFF_FFFF : Nat) / 64 ∉ plain.dev.poison ∧ (0 : Nat) < interTop plain.dev.memsplit
    ∧ ErrLoc.spData 67 = .spData 67 := by decide +kernel

theorem witness_LinksTemperatureReset_limits : (1051 : Nat) > 1050 ∧ (949 : Nat) < 950 ∧ (1151 : Nat) > 1150
    ∧ slotOk Boot.init Boot.init.slotA = true ∧ slotOk { Boot.init with rollback := 2 } Boot.init.slotA = false
    ∧ (match exec .reset State.reset with
        | .next t => t.dev.boot.status = 0
        | _ => false) = true := by decide +kernel

theorem witness_FabricTimeouts_grants :
    late.dev.arb[(3 : Fin 16)].wait ≠ [] ∧ plain.dev.arb[(3 : Fin 16)].wait = [] := by decide +kernel

/-! ## Witnesses: writes that loop back, krun that waits, gangs stopped at once -/

/-- A posted write of the strand of 8 bytes at `a` is open, to region 1 of this device: memory, or the SRF of its own gang. -/
def looping (w : Issuer) (a : BitVec 57) (srf : Bool) (s : State) : State :=
  { s with
    mem := (tabled 0x93 []).mem
    dev := { s.dev with
      regions := [(1, if srf then { region1 with srf := true, base := 0, lenb := 0x80_0000, glaunch := 1 } else region1)]
      txns := [⟨hdr 4 0x1FFF 8 a, 3, 0, 4000000, w, 0⟩] } }

def loopWrite : Issuer := .weak 0 (rec0 0 0 1)

theorem witness_Loads_loop :
    (let s := looping loopWrite 0x1_0000 false (paged 0x1_0000 5 0x193)
     (translate s (.sp 0) 0 0x1_0000 .read .scp).toOption = some (leaf 0x193) ∧ (leaf 0x193).ord ≠ 2
     ∧ loopBusy s none none ((leaf 0x193).pa 0x1_0000) 8 = true ∧ loopBusy s none none ((leaf 0x193).pa 0x1_0008) 8 = false)
    ∧ (let s := looping loopWrite 0x1_0000 false (paged 0x1_0000 5 0x183)
       (leaf 0x183).ord = 0 ∧ (translate s (.sp 0) 0 0x1_0000 .write .scpStg8).toOption = some (leaf 0x183)
       ∧ loopBusy s none none ((leaf 0x183).pa 0x1_0000) 8 = true)
    ∧ remoteOpen (looping loopWrite 0x1_0000 false plain) = true ∧ plain.dev.accId = 0
    ∧ plain.me.sto.weak = [] ∧ remoteOpen plain = false ∧ loopBusy storing none none ((leaf 0x193).pa 0x1_0000) 8 = false := by
  decide +kernel

theorem witness_SrfAccesses_loop :
    let s := looping loopWrite 0x100_0000_007F_FF80 true
      (seated (fun p => { p with r := p.r.put 1 0x7F_FF80, alloc := 0x80_0000, fe := BitVec.allOnes 65536 }) [seat1 (some 0)])
    s.fDecode 0 0x7F_FF80 = .srf 0 0x7F_FF80 ∧ (s.sp 0).full 0x7F_FF80 = true
    ∧ loopBusy s none (some 0) 0x7F_FF80 8 = true ∧ loopBusy s none (some 0) 0x7F_FF90 8 = false
    ∧ (let u := looping (.window 0 3 none) 0x100_0000_007F_FF80 true s
       loopBusy u (some 3) (some 0) 0x7F_FF80 8 = false ∧ loopBusy u (some 2) (some 0) 0x7F_FF80 8 = true) := by decide +kernel

theorem witness_Stores_map : checkUse (paged 0x1_0000 5 0x197) { leaf 0x197 with rmt := none } .write .scpStg8
      = some cRemoteMapInvalid ∧ cRemoteMapInvalid ≠ cPageWriteDenied ∧ mapFaultPrecise 0 cPageWriteDenied = false := by
  decide +kernel

theorem witness_StreamOps_krun :
    let k : KBlock := ⟨Vector.replicate 8 0, Vector.replicate 8 KBind.init, 8⟩
    let s := strand fun p => { p with pend := .krun k, str := p.str.take 7 }
    s.me.pend = .krun k ∧ s.me.str.busy 7 = true ∧ s.me.str.busy 6 = false
    ∧ WellFormed (.krun ⟨0, 0, 7⟩ 4095 true 0 1) = true := by decide +kernel

/-- A kernel of all 4,096 bundles at bundle 4,095. -/
theorem witness_BundleRuns_wrap :
    let k := { run1 with entry := 0, kpc := 4095, blk := { run1.blk with extent := 4096 } }
    k.entry.toNat ≤ (k.kpc.toNat + 1) % 4096 ∧ (k.kpc.toNat + 1) % 4096 < k.entry.toNat + k.blk.extent.toNat
    ∧ k.kpc + 1 = 0 := by decide

theorem witness_KernelJumps_draining : (kern fun e => { e with run := some { run1 with nits := some (0, 0, 0) } }).me.ke.run
    = some { run1 with nits := some (0, 0, 0) } := by decide +kernel

/-- The strand of SP 0 has been stopped at once. -/
def forced1 : State := (seated id [seatRb]).modSp 0 fun p => { p with run := .stopped .forced }

theorem witness_GangsComeAndGo_forced :
    gangSaved forced1 (gang1 [seatRb]) = true ∧ seatForced forced1 seatRb = true
    ∧ seatForced stopped1 (seat1 (some 0)) = false ∧ (forced1.sp 0).run ≠ .parked
    ∧ okAnd (gRead (resting .suspended [(0x2_0008, 3)]) .none 0 .device 0x1_0000 64) (fun b => field b 32 8 = 0 && field b 8 1 = 3)
        = true := by decide +kernel

theorem witness_SchedulerTimeouts_stops :
    seatForced (asked 1000001 (some ⟨0, false⟩) seatRb none) seatRb = false
    ∧ ((asked 1000001 (some ⟨0, false⟩) seatRb none).ctx 0).preempt = some ⟨0, false⟩
    ∧ 0 ∈ hangSeed (asked 1 none seatRb none) 0 := by decide +kernel

theorem witness_Dispatching_room :
    let s := State.reset.modCtx 0 fun c => { c with savedPool := [(3, 0)] }
    (s.ctx 0).preempt = none ∧ (s.ctx 0).savedPool = [(3, 0)] ∧ (s.die 3).pool.length < 4096
    ∧ (let u := s.modDie 3 fun d => { d with pool := List.replicate 4096 0 }
       (u.die 3).pool.length = 4096 ∧ ¬ ((u.die 3).pool.length < 4096)) := by decide +kernel

/-- The host answers for a page that has been unmapped since, or for one that it was not asked for. -/
theorem witness_PagesAndShootdowns_stray :
    let z : PageAsk := ⟨1, 0x1_0000, some (0, 4000000), true⟩
    hostEntry plain 1 0x1_0000 = none
    ∧ (plain.dev.pageAsks.find? fun z => z.ctx = 1 && z.va = 0x1_0000 && z.sent.isSome) = none
    ∧ ((plain.modDev fun d => { d with pageAsks := [z] }).dev.pageAsks.find? fun z => z.ctx = 1 && z.va = 0x1_0000 && z.sent.isSome)
        = some z := by decide +kernel

theorem witness_FabricTimeouts_port :
    let p : ChipPkt := ⟨63, none, 1024⟩
    (0 : Nat) < 256 ∧ 256 ≤ 256 - 0x1_0000 % 256 ∧ p.strm = none ∧ (plain.modDev fun d => { d with chip := [p] }).dev.chip = [p]
    ∧ (⟨63, some (0x4300, 1), 0⟩ : ChipPkt).strm.isSome = true := by decide +kernel

theorem witness_RdmaRequests_tables : (roce.ctx 0).tabA.bad = (roce.ctx 0).tabB.bad := by decide +kernel

theorem witness_ObjectCommands_revoke : assoc? keyed.dev.regions 1 = some region1 ∧ region1.gen = 4095
    ∧ region1.gen + 1 = 0 := by decide +kernel

/-- Of two slots the one of greater priority is served, the other waits. -/
theorem witness_EquinoxInstructions_next :
    let s := (eq 63 0 { qcb1 with state := .active, prio := 7 } []).setSlot 0 ⟨{ qcb1 with state := .active, qid := 1 }, 0⟩
    let u := (s.modCtx 0 fun c => { c with alive := true })
    slotServed u 0 = true ∧ slotServed u 63 = true ∧ nextServed u = some 63
    ∧ okAnd (gRead (eq 63 0x40 qcb1 (packet ++ [(0x2_0038, 1)])) .none 0 .equinox 0x1_0000 64)
        (fun b => !packetTorn b 1 && packetBad b) = true := by decide +kernel
end Sys2Proof.Tests
end

section
/-! PROOF. What leaves the stations of the fabric as they are, and what boot leaves as it is. -/

namespace Sys2Proof.Machine

open Sys2Proof

/-! ## Event records that may end a launch -/

/-- `DevWrote`, but for the launches. -/
def DevWroteLaunches (s t : State) : Prop := DevWrote { s with launches := t.launches } t

theorem DevWroteLaunches.trans {s t u : State} (h : DevWroteLaunches s t) (k : DevWroteLaunches t u) :
    DevWroteLaunches s u := by
  refine ⟨?_, k.wf ∘ h.wf⟩
  rw [k.rest, h.rest]

theorem DevWrote.launchesToo {s t : State} (h : DevWrote s t) : DevWroteLaunches s t := by
  unfold DevWroteLaunches
  rw [h.launches]
  exact h

theorem modLaunch_devWroteLaunches (s : State) (n : Nat) (f : Launch → Launch) : DevWroteLaunches s (s.modLaunch n f) :=
  ⟨rfl, id⟩

theorem EventRec.over_devWroteLaunches (e : EventRec) (s : State) : DevWroteLaunches s (e.over s) := by
  unfold EventRec.over
  split
  · exact modLaunch_devWroteLaunches ..
  · exact (DevWrote.refl s).launchesToo

theorem putEvent_devWroteLaunches (s : State) (e : EventRec) : DevWroteLaunches s (putEvent s e) := by
  unfold putEvent
  extract_lets later
  have h : DevWrote s later := ⟨rfl, id⟩
  split
  · exact h.launchesToo
  · split
    · exact (ringPut_devWrote (by assumption)).launchesToo.trans (e.over_devWroteLaunches _)
    · exact (h.trans (askPage_devWrote ..)).launchesToo
    · exact (noteDiscard_devWrote s).launchesToo.trans (e.over_devWroteLaunches _)

/-- What an event record does, whether it ends a launch or not. -/
theorem emitEnds_devWroteLaunches (ends : Option Nat) (s : State) (skind : BitVec 4) (snum : BitVec 16) (c : Cause)
    (typ : BitVec 4) (ctx : CtxId) (acc : BitVec 11) (info : W64) :
    DevWroteLaunches s (emitEnds ends s skind snum c typ ctx acc info) := by
  unfold emitEnds
  extract_lets k seq s1
  have h : DevWrote s s1 := ⟨rfl, id⟩
  exact h.launchesToo.trans (putEvent_devWroteLaunches ..)

theorem emitLaunch_devWroteLaunches (s : State) (li : Nat) (ctx : CtxId) (c : Cause) (seq : W64) :
    DevWroteLaunches s (emitLaunch s li ctx c seq) := emitEnds_devWroteLaunches ..

theorem emitQueue_devWrote (s : State) (ctx : CtxId) (c : Cause) (qid : BitVec 12) : DevWrote s (emitQueue s ctx c qid) :=
  emit_devWrote ..

/-! ## What an answer leaves alone -/

/-- The stations, what waits at them, the open transactions and the device's own ID are as before. -/
structure FabricKept (s t : State) : Prop where
  lanes : t.dev.lanes = s.dev.lanes
  arb   : t.dev.arb = s.dev.arb
  txns  : t.dev.txns = s.dev.txns
  accId : t.dev.accId = s.dev.accId

theorem FabricKept.of_dev {s t : State} (h : t.dev = s.dev) : FabricKept s t := by constructor <;> rw [h]

theorem FabricKept.refl (s : State) : FabricKept s s := .of_dev rfl

theorem DevWroteLaunches.fabricKept {s t : State} (h : DevWroteLaunches s t) : FabricKept s t := by
  constructor <;> rw [h.rest]

theorem DevWrote.fabricKept {s t : State} (h : DevWrote s t) : FabricKept s t := h.launchesToo.fabricKept

theorem DevWroteCtxs.fabricKept {s t : State} (h : DevWroteCtxs s t) : FabricKept s t := by
  constructor <;> rw [h.rest]

theorem FabricKept.trans {s t u : State} (h : FabricKept s t) (k : FabricKept t u) : FabricKept s u :=
  ⟨k.lanes.trans h.lanes, k.arb.trans h.arb, k.txns.trans h.txns, k.accId.trans h.accId⟩

/-- An answer concerns the one who waits for it; it moves no packet and opens or closes no transaction. -/
theorem answerTo_fabricKept (s : State) (t : Txn) (a : Reply) : FabricKept s (answerTo s t a) := by
  unfold answerTo
  split
  case h_3 => split <;> exact .of_dev rfl
  case h_12 =>
    split
    · split <;> exact .of_dev rfl
    · split
      · exact .refl s
      · exact (emitLaunch_devWroteLaunches ..).fabricKept
    · exact .refl s
  case h_14 =>
    split
    · exact .refl s
    · exact (emitQueue_devWrote ..).fabricKept
  all_goals exact .of_dev rfl

theorem countOverdue_fabricKept (s : State) (t : Txn) (ovd : Bool) : FabricKept s (countOverdue s t ovd) := by
  unfold countOverdue
  split
  · exact (overdueAnswer_devWrote ..).fabricKept
  · exact .refl s

/-! ## Closing transactions -/

/-- Two transactions have one stream and one tag. -/
def Txn.sameTag (x t : Txn) : Bool := x.h.ssid = t.h.ssid && x.h.tag = t.h.tag

/-- Every transaction of `l` is closed, and nothing else has happened at the stations. -/
structure TxnsClosed (s t : State) (l : List Txn) : Prop where
  lanes : t.dev.lanes = s.dev.lanes
  arb   : t.dev.arb = s.dev.arb
  accId : t.dev.accId = s.dev.accId
  txns  : ∀ x, x ∈ t.dev.txns ↔ x ∈ s.dev.txns ∧ ∀ y ∈ l, x.sameTag y = false

theorem closeTxn_txnsClosed (s : State) (t : Txn) (ovd : Bool) (a : Reply) : TxnsClosed s (closeTxn s t ovd a) [t] := by
  have k := (answerTo_fabricKept (s.modDev fun v =>
    { v with txns := v.txns.filter fun x => !(x.h.ssid = t.h.ssid && x.h.tag = t.h.tag) }) t a).trans
      (countOverdue_fabricKept _ t ovd)
  refine ⟨k.lanes, k.arb, k.accId, fun x => ?_⟩
  show x ∈ (countOverdue _ t ovd).dev.txns ↔ _
  rw [k.txns]
  simp only [State.modDev, Txn.sameTag, List.mem_filter, List.mem_singleton, forall_eq, Bool.not_eq_true']

theorem foldl_closeTxn_txnsClosed (a : Reply) (l : List Txn) (s : State) :
    TxnsClosed s (l.foldl (fun z t => closeTxn z t false a) s) l := by
  induction l generalizing s with
  | nil => exact ⟨rfl, rfl, rfl, by simp⟩
  | cons t l ih =>
    have h := closeTxn_txnsClosed s t false a
    have k := ih (closeTxn s t false a)
    refine ⟨k.lanes.trans h.lanes, k.arb.trans h.arb, k.accId.trans h.accId, fun x => ?_⟩
    rw [List.foldl_cons, k.txns, h.txns]
    simp [and_assoc]

/-- R166: a station that goes down loses what waits at it, and its transactions with other devices end. -/
theorem stationDown_loses (s : State) (st : StId) :
    (stationDown s st).dev.lanes = s.dev.lanes ∧ (stationDown s st).dev.accId = s.dev.accId
      ∧ (stationDown s st).dev.arb[st].wait = []
      ∧ ∀ x ∈ (stationDown s st).dev.txns, x.st = st → x.h.dst = s.dev.accId := by
  unfold stationDown
  extract_lets mine s1
  have k := foldl_closeTxn_txnsClosed (.err cFabricLinkDown) mine s1
  refine ⟨k.lanes, k.accId, ?_, fun x hx hst => ?_⟩
  · rw [k.arb]; simp [s1, State.modDev]
  · rw [k.txns] at hx
    obtain ⟨hs, hl⟩ := hx
    refine Decidable.byContradiction fun hd => ?_
    have hm : x ∈ mine := by
      simp only [mine, List.mem_filter]
      exact ⟨hs, by simpa [hst] using hd⟩
    simpa [Txn.sameTag] using hl x hm

/-- R159, R166: what the loss of lanes does. -/
theorem execLinkDegraded_of_less {st : StId} {n : BitVec 3} {s : State} (h : n.toNat < s.dev.lanes[st].toNat)
    (hn : n = 2 ∨ n = 1 ∨ n = 0) :
    ∃ t, execLinkDegraded st n s = .next t ∧ t.dev.lanes = s.dev.lanes.set st n
        ∧ (n = 0 → (t.dev.arb[st]).wait = [] ∧ ∀ x ∈ t.dev.txns, x.st = st → x.h.dst = s.dev.accId) := by
  have g : (n.toNat < s.dev.lanes[st].toNat && (n = 2 || n = 1 || n = 0)) = true := by
    simp only [Bool.and_eq_true, Bool.or_eq_true, decide_eq_true_eq, or_assoc]
    exact ⟨h, hn⟩
  rw [execLinkDegraded, if_pos g]
  extract_lets s1 s2
  obtain ⟨hl, ha, hw, ht⟩ := stationDown_loses s1 st
  refine ⟨_, rfl, ?_, fun h0 => ?_⟩
  · rw [(emit_devWrote s2 ..).fabricKept.lanes]
    simp only [s2]
    split
    · exact hl
    · rfl
  · have e : s2 = stationDown s1 st := if_pos h0
    rw [(emit_devWrote s2 ..).fabricKept.arb, (emit_devWrote s2 ..).fabricKept.txns, e]
    exact ⟨hw, ht⟩

theorem execLinkDegraded_of_not_less {st : StId} {n : BitVec 3} {s : State} (h : s.dev.lanes[st].toNat ≤ n.toNat) :
    execLinkDegraded st n s = .refused (.notEnabled "LINK_DEGRADED") := by
  rw [execLinkDegraded, if_neg (by rw [decide_eq_false (Nat.not_lt.mpr h)]; simp)]

/-! ## Temperature (R255) -/

theorem execThermalEvent_of_above {d : DieId} {temp : Nat} {s : State} (h : 1050 < temp) (hc : (s.die d).hot = false) :
    ∃ t, execThermalEvent d temp s = .next t ∧ (t.die d).hot = true := by
  rw [execThermalEvent, if_pos ⟨h, hc⟩]
  refine ⟨_, rfl, ?_⟩
  rw [State.die, (emit_devWrote ..).dies]
  exact congrArg Die.hot (State.die_modDie s d _)

theorem execThermalRecovery_of_below {d : DieId} {temp : Nat} {s : State} (h : temp < 950) (hh : (s.die d).hot = true) :
    ∃ t, execThermalRecovery d temp s = .next t ∧ (t.die d).hot = false ∧ SameMem s t := by
  rw [execThermalRecovery, if_pos ⟨h, hh⟩]
  exact ⟨_, rfl, congrArg Die.hot (State.die_modDie s d _), fun _ => rfl⟩

theorem execThermalShutdown_of_above {d : DieId} {temp : Nat} {s : State} (h : 1150 < temp) :
    ∃ t, execThermalShutdown d temp s = .next t ∧ t.dev.powered = false := by
  rw [execThermalShutdown, if_pos h]
  exact ⟨_, rfl, rfl⟩

/-! ## Page tables: what making an entry changes -/

/-- Only memory, the reservations and poison of what was written, and the frames in use differ. -/
def TablesWrote (s t : State) : Prop :=
  t = { s with
    mem := t.mem, resv := t.resv, dev := { s.dev with poison := t.dev.poison, frames := t.dev.frames } }

theorem TablesWrote.refl (s : State) : TablesWrote s s := rfl

theorem TablesWrote.trans {s t u : State} (h : TablesWrote s t) (k : TablesWrote t u) : TablesWrote s u := by
  unfold TablesWrote at *
  rw [k, h]

theorem allocZero_tablesWrote {s t : State} {n a : Nat} (h : allocZero s n = some (a, t)) : TablesWrote s t := by
  unfold allocZero at h
  split at h
  · cases h
  · cases h; rfl

/-- One level of `setEntry`, from the table below given as `below`. -/
theorem setEntry_body (s : State) (va lvl e n tbl : Nat)
    (below : Nat.below (motive := fun _ => State → Nat → Option State) n.succ) :
    setEntry._f va lvl e n.succ below s tbl =
      let a := tbl + 8 * tableIdx va (2 - n)
      let x := memNat s.mem a 8
      if lvl = 2 - n then some (putPte s a e)
      else if bit x 0 && !bit x 1 then below.1 s (bits x 14 32 * 2 ^ 14)
      else (allocZero s 0x4000).bind fun y => below.1 (putPte y.2 a (y.1 + 1)) y.1 := by
  delta setEntry._f
  dsimp only
  generalize allocZero s 0x4000 = o
  cases o <;> rfl

/-- `setEntry` at a level above the last. The equation that Lean derives itself makes the kernel evaluate `allocZero`, which
counts to 0x4000 in unary; here the frame is a variable before anything is evaluated. -/
theorem setEntry_succ (s : State) (va lvl e n tbl : Nat) :
    setEntry s va lvl e n.succ tbl =
      let a := tbl + 8 * tableIdx va (2 - n)
      let x := memNat s.mem a 8
      if lvl = 2 - n then some (putPte s a e)
      else if bit x 0 && !bit x 1 then setEntry s va lvl e n (bits x 14 32 * 2 ^ 14)
      else (allocZero s 0x4000).bind fun y => setEntry (putPte y.2 a (y.1 + 1)) va lvl e n y.1 := by
  delta setEntry
  have h := Nat.brecOn.eq (motive := fun _ => State → Nat → Option State) n.succ (setEntry._f va lvl e)
  exact (congrFun (congrFun h s) tbl).trans (setEntry_body ..)

theorem putPte_tablesWrote (s : State) (a e : Nat) : TablesWrote s (putPte s a e) := rfl

theorem setEntry_tablesWrote {s t : State} {va lvl e n tbl : Nat} (h : setEntry s va lvl e n tbl = some t) :
    TablesWrote s t := by
  induction n generalizing s tbl with
  | zero => cases h; rfl
  | succ n ih =>
    rw [setEntry_succ] at h
    extract_lets a x at h
    split at h
    · cases h; exact putPte_tablesWrote ..
    · split at h
      · exact ih h
      · obtain ⟨⟨f, u⟩, hu, h⟩ := Option.bind_eq_some_iff.mp h
        exact ((allocZero_tablesWrote hu).trans (putPte_tablesWrote u a (f + 1))).trans (ih h)

theorem setRun_tablesWrote {s t : State} {root va lvl e n : Nat} (h : setRun s root va lvl e n = some t) :
    TablesWrote s t := by
  induction n generalizing s with
  | zero => cases h; rfl
  | succ n ih =>
    unfold setRun at h
    split at h
    · cases h
    · exact (setEntry_tablesWrote (by assumption)).trans (ih h)

theorem putPage_tablesWrote {s t : State} {ctx : CtxId} {va p e : Nat} (h : putPage s ctx va p e = some t) :
    TablesWrote s t := setRun_tablesWrote h

/-- Mapping pages writes tables only, where finding a page's entry does. -/
theorem mapPages_tablesWrote {ctx : CtxId} {va p n : Nat} {mk : State → Nat → Option (State × Nat)}
    (hmk : ∀ s i u e, mk s i = some (u, e) → TablesWrote s u) {s t : State} (h : mapPages ctx va p mk n s = some t) :
    TablesWrote s t := by
  induction n generalizing t with
  | zero => cases h; rfl
  | succ n ih =>
    unfold mapPages at h
    split at h
    · cases h
    · rename_i u hu
      split at h
      · cases h
      · exact ((ih hu).trans (hmk _ _ _ _ (by assumption))).trans (putPage_tablesWrote h)

/-! ## Boot (R13, R252, R254) -/

/-- No work has come, the device's ID, its boot and MEMSPLIT are the same; the cores stand apart. -/
structure BootKept (s t : State) : Prop where
  sps      : t.sps = s.sps
  gangs    : t.gangs = s.gangs
  launches : t.launches = s.launches
  accId    : t.dev.accId = s.dev.accId
  memsplit : t.dev.memsplit = s.dev.memsplit

theorem BootKept.trans {s t u : State} (h : BootKept s t) (k : BootKept t u) : BootKept s u :=
  ⟨k.sps.trans h.sps, k.gangs.trans h.gangs, k.launches.trans h.launches, k.accId.trans h.accId,
    k.memsplit.trans h.memsplit⟩

theorem TablesWrote.bootKept {s t : State} (h : TablesWrote s t) : BootKept s t := by
  constructor <;> rw [h]

theorem TablesWrote.cores {s t : State} (h : TablesWrote s t) : t.cores = s.cores := by rw [h]

theorem DevWrote.bootKept {s t : State} (h : DevWrote s t) : BootKept s t := by
  constructor <;> rw [h.rest]

/-- R238: what the cores hold once the accepted image is loaded. -/
def loadActive (img : List Byte) (cores : Vector Core 12) : Vector Core 12 :=
  cores.map fun c => if c.status = .active then loadCore img c else c

theorem bootImage_bootKept {s t : State} (h : bootImage s = some t) :
    BootKept s t ∧ t.cores = loadActive s.dev.boot.running.image s.cores := by
  unfold bootImage at h
  extract_lets img place at h
  obtain ⟨⟨a, u⟩, hu, rfl⟩ := Option.map_eq_some_iff.mp h
  have hw : TablesWrote s u := by
    simp only [place] at hu
    split at hu
    · cases hu; exact .refl s
    · exact allocZero_tablesWrote hu
  have k := hw.bootKept
  exact ⟨⟨k.sps, k.gangs, k.launches, k.accId, k.memsplit⟩, rfl⟩

theorem makeCtx_bootKept {s t : State} {i : CtxId} {slk : Vector (BitVec 12) 4} {kick : W64}
    (h : makeCtx s i slk kick = some t) : BootKept s t ∧ t.cores = s.cores := by
  unfold makeCtx at h
  obtain ⟨⟨a, u⟩, hu, h⟩ := Option.bind_eq_some_iff.mp h
  obtain ⟨⟨b, v⟩, hv, rfl⟩ := Option.map_eq_some_iff.mp h
  have hw := (allocZero_tablesWrote hu).trans (allocZero_tablesWrote hv)
  have k := hw.bootKept
  exact ⟨⟨k.sps, k.gangs, k.launches, k.accId, k.memsplit⟩, hw.cores⟩

theorem bootPages_tablesWrote {s t : State} (h : bootPages s = some t) : TablesWrote s t := by
  refine mapPages_tablesWrote (fun u i v e hm => ?_) h
  obtain ⟨⟨a, w⟩, hw, he⟩ := Option.map_eq_some_iff.mp hm
  cases he
  exact allocZero_tablesWrote hw

theorem restoreKicks_bootKept (s : State) (ctx : CtxId) (qid : BitVec 12) :
    BootKept s (restoreKicks s ctx qid) ∧ (restoreKicks s ctx qid).cores = s.cores := by
  have hm : ∀ f : Ctx → Ctx, BootKept s (s.modCtx ctx f) := fun f => ⟨rfl, rfl, rfl, rfl, rfl⟩
  unfold restoreKicks
  extract_lets c
  split
  · exact ⟨(hm _).trans (emitQueue_devWrote ..).bootKept, (emitQueue_devWrote ..).cores⟩
  · split
    · exact ⟨(hm _).trans (emitQueue_devWrote ..).bootKept, (emitQueue_devWrote ..).cores⟩
    · exact ⟨⟨rfl, rfl, rfl, rfl, rfl⟩, rfl⟩

theorem makeQueue_bootKept (s : State) (ctx : CtxId) (qid : Nat) (ring : W64) (log2n prio : Nat) :
    BootKept s (makeQueue s ctx qid ring log2n prio) ∧ (makeQueue s ctx qid ring log2n prio).cores = s.cores := by
  obtain ⟨k, hc⟩ := restoreKicks_bootKept s ctx (BitVec.ofNat 12 qid)
  exact ⟨⟨k.sps, k.gangs, k.launches, k.accId, k.memsplit⟩, hc⟩

/-- What boot comes to: it brings no work, and, where it is ready, MEMSPLIT is locked and the active cores hold the image of the
slot that runs (R13, R238, R254). -/
theorem bootDevice_spec (s : State) :
    (bootDevice s).sps = s.sps ∧ (bootDevice s).gangs = s.gangs ∧ (bootDevice s).launches = s.launches
      ∧ (bootDevice s).dev.accId = s.dev.accId
      ∧ (s.dev.boot.status ≠ 0 → (bootDevice s).dev.boot.status = 0 → (bootDevice s).dev.memsplit.getLsbD 7 = true
          ∧ (bootDevice s).cores = loadActive s.dev.boot.running.image s.cores) := by
  unfold bootDevice
  extract_lets s1
  split
  · exact ⟨rfl, rfl, rfl, rfl, fun h h0 => absurd h0 h⟩
  · rename_i t ht
    obtain ⟨u, hu, ht⟩ := Option.bind_eq_some_iff.mp ht
    obtain ⟨v, hv, hp⟩ := Option.bind_eq_some_iff.mp ht
    obtain ⟨ki, hi⟩ := bootImage_bootKept hu
    obtain ⟨km, hm⟩ := makeCtx_bootKept hv
    have hw := bootPages_tablesWrote hp
    obtain ⟨kq, hq⟩ := makeQueue_bootKept t 0 0 (BitVec.ofNat 64 bootRing) bootLog2n 0
    have k := ((ki.trans km).trans hw.bootKept).trans kq
    refine ⟨k.sps, k.gangs, k.launches, k.accId, fun _ _ => ⟨?_, ?_⟩⟩
    · refine (congrArg (fun m => BitVec.getLsbD m 7) k.memsplit).trans ?_
      simp [s1, State.modDev]
    · exact hq.trans (hw.cores.trans (hm.trans hi))

theorem eqx_loadActive {s t : State} {img : List Byte} (h : t.cores = loadActive img s.cores) {c : CoreId}
    (hc : (s.eqx c).status = .active) : t.eqx c = loadCore img (s.eqx c) := by
  have e : t.eqx c = if (s.eqx c).status = .active then loadCore img (s.eqx c) else s.eqx c := by
    unfold State.eqx
    rw [Fin.getElem_fin, h, loadActive, Vector.getElem_map]
    rfl
  rw [e, if_pos hc]

/-- R252: reset keeps flash, fuses and the accelerator ID, and boots from slot A, else from slot B, else from neither. -/
theorem resetDevice_spec (s : State) :
    let t := resetDevice s
    t.sps = State.reset.sps ∧ t.gangs = [] ∧ t.launches = [] ∧ t.dev.accId = s.dev.accId
    ∧ (slotOk s.dev.boot s.dev.boot.slotA = false → slotOk s.dev.boot s.dev.boot.slotB = false →
        t.dev.boot.status = 2 ∧ t.cores = State.reset.cores)
    ∧ (t.dev.boot.status = 0 → t.dev.memsplit.getLsbD 7 = true
        ∧ ∃ f, (f = s.dev.boot.slotA ∨ (f = s.dev.boot.slotB ∧ slotOk s.dev.boot s.dev.boot.slotA = false))
          ∧ slotOk s.dev.boot f = true ∧ ∀ c : CoreId, (State.reset.eqx c).status = .active →
            (t.eqx c).imem = memWrite [] 0 (f.image.take 0x8_0000) ∧ (t.eqx c).pc = 0) := by
  intro t
  have ha : slotOk (coldState s).dev.boot (coldState s).dev.boot.slotA = slotOk s.dev.boot s.dev.boot.slotA := rfl
  have hb : slotOk (coldState s).dev.boot (coldState s).dev.boot.slotB = slotOk s.dev.boot s.dev.boot.slotB := rfl
  have one_ne_zero : (1 : BitVec 8) ≠ 0 := by decide
  have two_ne_zero : (2 : BitVec 8) ≠ 0 := by decide
  have loaded : ∀ {u : State} {img : List Byte}, u.cores = loadActive img State.reset.cores → ∀ c : CoreId,
      (State.reset.eqx c).status = .active → (u.eqx c).imem = memWrite [] 0 (img.take 0x8_0000) ∧ (u.eqx c).pc = 0 := by
    intro u img h c hc
    rw [eqx_loadActive h hc]
    exact ⟨rfl, rfl⟩
  simp only [t, resetDevice]
  rw [ha, hb]
  split
  case isTrue hA =>
    obtain ⟨hs, hg, hl, hi, hr⟩ := bootDevice_spec (coldState s)
    refine ⟨hs, hg, hl, hi, fun h => absurd hA (by simp [h]), fun h0 => ?_⟩
    obtain ⟨hm, hc⟩ := hr one_ne_zero h0
    exact ⟨hm, _, .inl rfl, hA, loaded hc⟩
  case isFalse hA =>
    split
    case isTrue hB =>
      obtain ⟨hs, hg, hl, hi, hr⟩ :=
        bootDevice_spec ((coldState s).modDev fun d => { d with boot := { d.boot with slot := 1 } })
      refine ⟨hs, hg, hl, hi, fun _ h => absurd hB (by simp [h]), fun h0 => ?_⟩
      obtain ⟨hm, hc⟩ := hr one_ne_zero h0
      exact ⟨hm, _, .inr ⟨rfl, by simpa using hA⟩, hB, loaded hc⟩
    case isFalse hB =>
      exact ⟨rfl, rfl, rfl, rfl, fun _ _ => ⟨rfl, rfl⟩, fun h0 => absurd h0 two_ne_zero⟩

/-- Settles O60: each event's effect is stated once by the lemmas above; here they are put together. -/
theorem linksTemperatureReset : Obligations.LinksTemperatureReset := by
  unfold Obligations.LinksTemperatureReset
  intro st n d temp s
  refine ⟨execLinkDegraded_of_less, execLinkDegraded_of_not_less, execThermalEvent_of_above,
    execThermalRecovery_of_below, execThermalShutdown_of_above, fun h => ?_, fun h => ?_, fun h => ?_,
    fun p hp => ?_, _, rfl, resetDevice_spec s⟩
  · exact if_neg fun ⟨ht, hc⟩ => by simp [hc, Nat.not_le.mpr ht] at h
  · exact if_neg fun ⟨ht, hh⟩ => by simp [hh, Nat.not_le.mpr ht] at h
  · exact if_neg (Nat.not_lt.mpr h)
  · rw [governorLimit, hp]

end Sys2Proof.Machine
end

section
/-! PROOF. What leaves every SP as it is, and that the end of a gang leaves a retired SP retired. -/

namespace Sys2Proof.Machine

open Sys2Proof

/-- A fold keeps what each of its steps keeps. -/
theorem foldl_keeps {β γ : Type} (p : State → γ) {f : State → β → State} (h : ∀ t x, p (f t x) = p t) (l : List β)
    (s : State) : p (l.foldl f s) = p s := by
  induction l generalizing s with
  | nil => rfl
  | cons x l ih => exact (ih _).trans (h s x)

/-! ## What leaves every SP as it is -/

theorem TablesWrote.sps {s t : State} (h : TablesWrote s t) : t.sps = s.sps := by rw [h]

@[simp] theorem State.chipFront_sps (s : State) (ctx : CtxId) (die : DieId) (a n : Nat) :
    (s.chipFront ctx die a n).sps = s.sps := State.chip_sps ..

@[simp] theorem devPut_sps (s : State) (ctx : CtxId) (va : W64) (d : List Byte) : (devPut s ctx va d).sps = s.sps :=
  (devPut_devWrote ..).sps

@[simp] theorem writeRecords_sps (s : State) (gi n : Nat) : (writeRecords s gi n).sps = s.sps :=
  (writeRecords_devWrote ..).sps

@[simp] theorem emit_sps (s : State) (skind : BitVec 4) (snum : BitVec 16) (c : Cause) (typ : BitVec 4) (ctx : CtxId)
    (acc : BitVec 11) (info : W64) : (emit s skind snum c typ ctx acc info).sps = s.sps := (emit_devWrote ..).sps

theorem DevWroteLaunches.sps {s t : State} (h : DevWroteLaunches s t) : t.sps = s.sps := by rw [h.rest]

/-! The device area -/

@[simp] theorem devReserve_sps (s : State) (ctx : CtxId) (al n : Nat) : (devReserve s ctx al n).1.sps = s.sps := by
  unfold devReserve
  split <;> rfl

theorem setRun_getD_tablesWrote (s : State) (root va lvl e n : Nat) :
    TablesWrote s ((setRun s root va lvl e n).getD s) := by
  cases h : setRun s root va lvl e n with
  | none => exact .refl s
  | some t => exact setRun_tablesWrote h

theorem mapDevPage_tablesWrote (s : State) (ctx : CtxId) (va : Nat) : TablesWrote s (mapDevPage s ctx va) := by
  unfold mapDevPage
  split
  · exact .refl s
  · split
    · exact .refl s
    · rename_i f t ht
      have h := allocZero_tablesWrote ht
      cases hr : setRun t (rootTable (t.ctx ctx)) va 3 (f + 0x13) 1 with
      | none => exact .refl s
      | some u => exact h.trans (setRun_tablesWrote hr)

theorem mapDevPages_tablesWrote (s : State) (ctx : CtxId) (va n : Nat) : TablesWrote s (mapDevPages s ctx va n) := by
  induction n with
  | zero => exact .refl s
  | succ n ih => exact ih.trans (mapDevPage_tablesWrote ..)

@[simp] theorem mapDevRange_sps (s : State) (ctx : CtxId) (va n : Nat) : (mapDevRange s ctx va n).sps = s.sps := by
  unfold mapDevRange
  extract_lets lo k
  split
  · rfl
  · exact (mapDevPages_tablesWrote ..).sps

@[simp] theorem devStore_sps (s : State) (ctx : CtxId) (va : W64) (d : List Byte) : (devStore s ctx va d).sps = s.sps := by
  simp [devStore]

theorem clearDevPage_sps (ctx : CtxId) (x : State × List Nat) (va : Nat) : (clearDevPage ctx x va).1.sps = x.1.sps := by
  unfold clearDevPage
  split
  · rfl
  · exact (setRun_getD_tablesWrote ..).sps

theorem foldl_clearDevPage_sps (ctx : CtxId) (l : List Nat) (x : State × List Nat) :
    (l.foldl (clearDevPage ctx) x).1.sps = x.1.sps := by
  induction l generalizing x with
  | nil => rfl
  | cons va l ih => exact (ih _).trans (clearDevPage_sps ..)

@[simp] theorem devFree_sps (s : State) (ctx : CtxId) (va : W64) : (devFree s ctx va).sps = s.sps := rfl

theorem startShootdown_sps (s : State) (ctx : CtxId) (lo hi : Nat) (frees : List Nat) :
    (startShootdown s ctx lo hi frees).sps = s.sps := rfl

@[simp] theorem freeSave_sps (s : State) (ctx : CtxId) (va : W64) : (freeSave s ctx va).sps = s.sps := by
  unfold freeSave
  dsimp only
  generalize List.range _ = pages
  split
  · rfl
  · rw [devFree_sps]
    split
    · rw [foldl_clearDevPage_sps]
    · rw [startShootdown_sps, foldl_clearDevPage_sps]

theorem freeAreas_sps (s : State) (ctx : CtxId) (l : List Seat) : (freeAreas s ctx l).sps = s.sps :=
  foldl_keeps State.sps (by simp) l s

@[simp] theorem endAreas_sps (s : State) (gi : Nat) (c : Cause) (g : Gang) : (endAreas s gi c g).sps = s.sps := by
  unfold endAreas
  split
  · rfl
  · exact freeAreas_sps ..

/-! The launch engine's writes -/

theorem sendReq_sps {s t : State} {who : Issuer} {ctx : CtxId} {ssid : BitVec 16} {typ : BitVec 6} {aop : BitVec 4}
    {dst : BitVec 11} {key : W32} {addr len : Nat} {slack : BitVec 12} {ord : Bool} {d : List Byte} {tag : BitVec 12}
    (h : sendReq s who ctx ssid typ aop dst key addr len slack ord d = .ok tag t) : t.sps = s.sps := by
  unfold sendReq at h
  extract_lets used at h
  split at h
  · cases h
  · cases h
  · extract_lets hd x s1 at h
    cases h
    split <;> rfl

theorem flushOwed_sps (l : List Owed) (s : State) : (flushOwed l s).sps = s.sps := by
  induction l generalizing s with
  | nil => rfl
  | cons o l ih =>
    unfold flushOwed
    split
    · exact (ih _).trans (sendReq_sps (by assumption))
    · exact ih s
    · exact ih _

theorem engineWrite_sps (die : DieId) (slack : BitVec 12) (ctx : CtxId) (fuel : Nat) (s : State) (va : Nat)
    (d : List Byte) : (engineWrite die slack ctx fuel s va d).sps = s.sps := by
  induction fuel generalizing s va d with
  | zero => rfl
  | succ fuel ih =>
    unfold engineWrite
    split
    · rfl
    · split
      · rfl
      · extract_lets n s1
        refine (ih ..).trans ?_
        simp only [s1]
        split
        · rfl
        · exact State.chip_sps ..

@[simp] theorem enginePut_sps (s : State) (l : Launch) (va : Nat) (d : List Byte) : (enginePut s l va d).sps = s.sps :=
  (flushOwed_sps ..).trans (engineWrite_sps ..)

/-! Tasks and launches -/

theorem writeTask_sps (s : State) (li idx : Nat) : (writeTask s li idx).sps = s.sps := by
  unfold writeTask
  split
  · rfl
  · split
    · rfl
    · exact enginePut_sps ..

@[simp] theorem modTask_sps (s : State) (li idx : Nat) (f : Task → Task) : (modTask s li idx f).sps = s.sps :=
  writeTask_sps ..

@[simp] theorem modTasks_sps (s : State) (li : Nat) (f : Task → Task) (l : List Nat) : (modTasks s li f l).sps = s.sps := by
  induction l generalizing s with
  | nil => rfl
  | cons i l ih => exact (ih _).trans (modTask_sps ..)

@[simp] theorem poison_sps (s : State) (li idx : Nat) : (poison s li idx).sps = s.sps := by
  unfold poison
  split
  · rfl
  · exact modTasks_sps ..

@[simp] theorem endWith_sps (s : State) (li : Nat) (c : Cause) : (endWith s li c).sps = s.sps := by
  unfold endWith
  split
  · rfl
  · exact (emitLaunch_devWroteLaunches ..).sps

@[simp] theorem endFailed_sps (s : State) (li : Nat) (c : Cause) : (endFailed s li c).sps = s.sps := endWith_sps ..

theorem checkFinal_sps (s : State) (li : Nat) : (checkFinal s li).sps = s.sps := by
  unfold checkFinal
  split
  · rfl
  · split
    · rfl
    · extract_lets s1 s2
      have h1 : s1.sps = s.sps := by
        simp only [s1]
        split
        · exact modTasks_sps ..
        · rfl
      split
      · exact h1
      · split
        · exact h1
        · split
          · exact (endFailed_sps ..).trans h1
          · exact h1

@[simp] theorem putArea_sps (s : State) (gi n : Nat) (g : Gang) (a : SaveArea) : (putArea s gi n g a).sps = s.sps := by
  unfold putArea
  split
  · rfl
  · simp only [State.modSeat, State.modGang_sps, devStore_sps, State.chipFront_sps]
    split
    · exact devReserve_sps ..
    · rfl

/-! Copies that stop -/

theorem addRest_sps (n : Nat) (s : State) (l : List (Nat × Nat × List Byte)) : (addRest n s l).sps = s.sps := by
  induction n generalizing s l with
  | zero => rfl
  | succ n ih =>
    unfold addRest
    split
    · rfl
    · exact ih ..

theorem finishElement_sps (s : State) (sp : SpId) (ch : ChId) (r : CopyRun) (t : Template) :
    (finishElement s sp ch r t).sps = s.sps := by
  unfold finishElement
  extract_lets n ctx da
  split
  · rfl
  · split
    · rfl
    · split <;> rfl

theorem stopCopy_sps (sp : SpId) (s : State) (ch : ChId) : (stopCopy sp s ch).sps = s.sps := by
  unfold stopCopy
  split
  · rfl
  · extract_lets s1
    split
    · exact addRest_sps ..
    · exact (finishElement_sps ..).trans (addRest_sps ..)

theorem stopCopies_sps (s : State) (sp : SpId) : (stopCopies s sp).sps = s.sps :=
  foldl_keeps State.sps (stopCopy_sps sp) _ s

/-! ## Which SPs are retired -/

/-- Which SPs are retired. -/
def State.retireds (s : State) (i : SpId) : Bool := (s.sp i).retired

theorem retireds_of_sps {s t : State} (h : t.sps = s.sps) : t.retireds = s.retireds := by
  funext i
  simp only [State.retireds, State.sp, h]

theorem State.modSp_retireds (s : State) (sp : SpId) {f : Sp → Sp} (h : ∀ p, (f p).retired = p.retired) :
    (s.modSp sp f).retireds = s.retireds := by
  funext i
  by_cases hi : i = sp
  · subst hi
    simp [State.retireds, h]
  · simp [State.retireds, State.sp_modSp_ne s sp i f hi]

theorem State.modKe_retireds (s : State) (sp : SpId) (f : KEngine → KEngine) : (s.modKe sp f).retireds = s.retireds :=
  s.modSp_retireds sp fun _ => rfl

theorem Sp.setFullRange_retired (p : Sp) (f : Nat) (b : Bool) (n : Nat) : (p.setFullRange f b n).retired = p.retired := by
  induction n generalizing p with
  | zero => rfl
  | succ n ih => exact ih _

theorem Sp.setTile_retired (p : Sp) (f : Nat) (d : VReg) (n : Nat) : (p.setTile f d n).retired = p.retired := by
  induction n with
  | zero => rfl
  | succ n ih => exact ih

theorem Sp.fWrite_retired (p : Sp) (f : Nat) (d : List Byte) : (p.fWrite f d).retired = p.retired := by
  induction d generalizing p f with
  | nil => rfl
  | cons b d ih => exact ih ..

/-! A kernel's results and a strand's stores -/

theorem landOne_retireds (s : State) (sp : SpId) (f : InFlight) : (landOne s sp f).retireds = s.retireds := by
  unfold landOne
  split
  case h_1 => exact s.modSp_retireds _ fun p => (Sp.setFullRange_retired ..).trans (Sp.setTile_retired ..)
  all_goals exact s.modKe_retireds ..

theorem landDue_retireds (s : State) (sp : SpId) : (landDue s sp).retireds = s.retireds := by
  unfold landDue
  extract_lets e due rest
  exact (foldl_keeps State.retireds (fun t f => landOne_retireds t sp f) ..).trans (s.modKe_retireds ..)

theorem landRest_retireds (n : Nat) (s : State) (sp : SpId) : (landRest n s sp).retireds = s.retireds := by
  induction n generalizing s with
  | zero => rfl
  | succ n ih =>
    unfold landRest
    split
    · rfl
    · extract_lets s1
      calc (landRest n _ sp).retireds = (s1.modKe sp _).retireds := ih _
        _ = s1.retireds := s1.modKe_retireds ..
        _ = (landDue s sp).retireds := State.modKe_retireds ..
        _ = s.retireds := landDue_retireds s sp

theorem performStore_retireds (s : State) (w : WeakStore) : (performStore s w).retireds = s.retireds := by
  unfold performStore
  extract_lets d
  split
  · rfl
  · exact s.modSp_retireds _ fun p => p.fWrite_retired ..

theorem drainIf_retireds (f : WeakStore → Bool) (s : State) (sp : SpId) : (drainIf f s sp).retireds = s.retireds := by
  unfold drainIf
  extract_lets q
  refine (State.modSp_retireds _ _ ?_).trans (foldl_keeps State.retireds performStore_retireds ..)
  exact fun _ => rfl

/-! A strand leaves its SP -/

theorem orphan_retireds (s : State) (sp : SpId) : (orphan s sp).retireds = s.retireds := rfl

theorem abandonSp_retireds (s : State) (sp : SpId) : (abandonSp s sp).retireds = s.retireds := by
  unfold abandonSp
  rw [State.modSp_retireds, orphan_retireds, retireds_of_sps (stopCopies_sps ..), landRest_retireds]
  exact fun _ => rfl

theorem freeSp_retireds (s : State) (sp : SpId) : (freeSp s sp).retireds = s.retireds := by
  unfold freeSp
  rw [State.modSp_retireds, abandonSp_retireds]
  exact fun _ => rfl

theorem freeSeats_retireds (s : State) (l : List Seat) : (freeSeats s l).retireds = s.retireds := by
  induction l generalizing s with
  | nil => rfl
  | cons q l ih =>
    unfold freeSeats
    split
    · exact ih s
    · exact (ih _).trans (freeSp_retireds ..)

/-! The ways in which a gang ends or leaves its SPs -/

theorem failSeats_retireds (s : State) (gi : Nat) (bad : List Nat) (c : Cause) :
    (failSeats s gi bad c).retireds = s.retireds := by
  unfold failSeats
  split
  · rfl
  · rename_i g _
    extract_lets seq sp s1 s2 s3 s4 s5 graph s5' s6
    have h4 : s4.sps = s1.sps := by
      have h3 : s3.sps = s1.sps := writeRecords_sps ..
      simp only [s4]
      split
      · exact (emit_sps ..).trans h3
      · exact h3
    have h6 : s6.sps = s4.sps := by
      simp only [s6]
      split
      · simp [s5', s5, servedBy, recordCause]
      · rfl
    calc _ = s1.retireds := retireds_of_sps ((checkFinal_sps ..).trans ((endAreas_sps ..).trans (h6.trans h4)))
      _ = s.retireds := freeSeats_retireds ..

theorem leaveSps_retireds (s : State) (gi : Nat) (resume : Bool) : (leaveSps s gi resume).retireds = s.retireds := by
  unfold leaveSps
  split
  · rfl
  · rename_i g _
    extract_lets s1 graph s2
    have h2 : s2.sps = (freeSeats s g.seats).sps := by
      simp only [s2]
      split
      · exact modTask_sps ..
      · rfl
    calc _ = (freeSeats s g.seats).retireds := retireds_of_sps ((writeRecords_sps ..).trans h2)
      _ = s.retireds := freeSeats_retireds ..

theorem saveSeat_retireds (s : State) (gi n : Nat) (g : Gang) : (saveSeat s gi n g).retireds = s.retireds := by
  unfold saveSeat
  split
  · extract_lets s0
    exact (retireds_of_sps (putArea_sps ..)).trans (drainIf_retireds ..)
  · rfl

theorem rollbackSeat_retireds (s : State) (gi n : Nat) (g : Gang) : (rollbackSeat s gi n g).retireds = s.retireds := by
  unfold rollbackSeat
  split
  · split
    · exact saveSeat_retireds ..
    · extract_lets p s1
      calc _ = s1.retireds := retireds_of_sps (putArea_sps ..)
        _ = (drainIf (fun _ => true) s _).retireds := freeSp_retireds ..
        _ = s.retireds := drainIf_retireds ..
  · rfl

theorem rollbackSeats_retireds (s : State) (gi : Nat) (g : Gang) (n : Nat) :
    (rollbackSeats s gi g n).retireds = s.retireds := by
  induction n with
  | zero => rfl
  | succ n ih => exact (rollbackSeat_retireds ..).trans ih

theorem rollbackGang_retireds (s : State) (gi : Nat) : (rollbackGang s gi).retireds = s.retireds := by
  unfold rollbackGang
  split
  · rfl
  · exact (leaveSps_retireds ..).trans (rollbackSeats_retireds ..)

theorem renewGang_retireds (s : State) (gi : Nat) : (renewGang s gi).retireds = s.retireds := by
  unfold renewGang
  split
  · rfl
  · split
    · rfl
    · exact (leaveSps_retireds ..).trans (freeSeats_retireds ..)

theorem failedSpGang_retireds (s : State) (gi n : Nat) : (failedSpGang s gi n).retireds = s.retireds := by
  have fail : ∀ c, (failGang s gi n c).retireds = s.retireds := failSeats_retireds s gi [n]
  have renew := renewGang_retireds s gi
  unfold failedSpGang
  split
  · rfl
  · extract_lets idem bare
    split
    · split
      · exact renew
      · exact fail _
    · split
      · exact renew
      · split
        · split
          · exact renew
          · exact fail _
        · exact rollbackGang_retireds ..

/-! The launches after a retirement (R48) -/

theorem moveRanges_sps (s : State) (li : Nat) (l : Launch) (die dst : DieId) : (moveRanges s li l die dst).sps = s.sps := by
  refine foldl_keeps State.sps (fun t i => ?_) _ s
  split
  · split <;> rfl
  · split <;> rfl
  · rfl

theorem moveReady_sps (s : State) (li : Nat) (die : DieId) (dies : List DieId) : (moveReady s li die dies).sps = s.sps := by
  unfold moveReady
  extract_lets mine s1
  refine foldl_keeps State.sps (fun t x => ?_) _ s1
  split <;> rfl

theorem unplaceable_retireds (s : State) (li : Nat) : (unplaceable s li).retireds = s.retireds := by
  unfold unplaceable
  extract_lets c s1 s2 s3
  have h3 : s3.retireds = s.retireds := by
    refine foldl_keeps State.retireds (fun t gi => ?_) _ s2
    split
    · split
      · exact failSeats_retireds ..
      · rfl
    · rfl
  split
  · split
    · exact h3
    · exact (retireds_of_sps (endFailed_sps ..)).trans h3
  · exact h3

theorem afterRetire_retireds (die : DieId) (s : State) (li : Nat) : (afterRetire die s li).retireds = s.retireds := by
  unfold afterRetire
  split
  · rfl
  · split
    · rfl
    · split
      · exact unplaceable_retireds ..
      · exact retireds_of_sps ((moveReady_sps ..).trans (moveRanges_sps ..))

/-- R246: a retired SP stays so while its gang and the launches give way. -/
theorem retireSp_retired (s : State) (sp : SpId) : ((retireSp s sp).sp sp).retired = true := by
  unfold retireSp
  extract_lets d s1 s2 s3 s4
  have h1 : s1.retireds sp = true := by simp [State.retireds, s1]
  have h2 : s2.retireds = s1.retireds := by
    simp only [s2]
    split <;> rfl
  have h3 : s3.retireds = s2.retireds := by
    simp only [s3]
    split
    · exact failedSpGang_retireds ..
    · rfl
  have h4 : s4.retireds = s3.retireds := foldl_keeps State.retireds (afterRetire_retireds d) _ s3
  have he := retireds_of_sps (emit_sps s4 4 (BitVec.ofNat 16 d.val) cSpRetired 5 0 s4.dev.accId (BitVec.ofNat 64 sp.val))
  exact (congrFun (he.trans (h4.trans (h3.trans h2))) sp).trans h1

end Sys2Proof.Machine
end

section
/-! PROOF. Counting, retirement, fencing and restoring (R238, R239, R244 to R246). -/

namespace Sys2Proof.Machine

open Sys2Proof

/-! ## Counting (R244) -/

/-- The correctable errors counted for a source. -/
def State.errCount (s : State) (k : BitVec 4 × BitVec 16) : Nat :=
  ((s.dev.ras.find? fun x => x.1 = k.1 ∧ x.2.1 = k.2).map fun x => x.2.2).getD 0

theorem errCount_countError_same (s : State) (l : ErrLoc) :
    (countError s l).errCount (errSource s l) = s.errCount (errSource s l) + 1 := by
  simp [State.errCount, countError, State.modDev]

theorem errCount_countError_ne (s : State) (l : ErrLoc) {k : BitVec 4 × BitVec 16} (h : k ≠ errSource s l) :
    (countError s l).errCount k = s.errCount k := by
  have hk : ¬ ((errSource s l).1 = k.1 ∧ (errSource s l).2 = k.2) := fun e => h (Prod.ext e.1.symm e.2.symm)
  have hf : ∀ x : BitVec 4 × BitVec 16 × Nat, (x.1 = k.1 ∧ x.2.1 = k.2) →
      ¬ (x.1 = (errSource s l).1 ∧ x.2.1 = (errSource s l).2) := fun x hx e => hk ⟨e.1 ▸ hx.1, e.2 ▸ hx.2⟩
  unfold State.errCount countError State.modDev
  dsimp only
  rw [List.find?_cons_of_neg (by simpa using hk), List.find?_filter]
  congr 3
  funext x
  refine decide_eq_decide.mpr ⟨fun h => of_decide_eq_true h.2, fun hx => ⟨?_, decide_eq_true hx⟩⟩
  rw [← Bool.decide_and, ← decide_not]
  exact decide_eq_true (hf x hx)

/-- What a correctable error leaves: the count of its source is one more, and an SP notes when it met it. -/
structure Counted (s t : State) (l : ErrLoc) : Prop where
  rest  : t = { s with sps := t.sps, dev := { s.dev with ras := t.dev.ras } }
  one   : t.errCount (errSource s l) = s.errCount (errSource s l) + 1
  other : ∀ k, k ≠ errSource s l → t.errCount k = s.errCount k
  sps   : ∀ i, t.sp i = { s.sp i with corr := (t.sp i).corr }

theorem countError_counted (s : State) (l : ErrLoc) : Counted s (countError s l) l :=
  ⟨rfl, errCount_countError_same s l, fun _ => errCount_countError_ne s l, fun _ => rfl⟩

theorem noteCorr_counted {s t : State} {l : ErrLoc} (h : Counted s t l) (sp : SpId) : Counted s (noteCorr t sp) l where
  rest := congrArg (fun u : State => { u with sps := (noteCorr t sp).sps }) h.rest
  one := h.one
  other := h.other
  sps := fun i => by
    unfold noteCorr
    by_cases hi : i = sp
    · subst hi
      rw [State.sp_modSp, h.sps]
    · rw [State.sp_modSp_ne _ _ _ _ hi]
      exact h.sps i

theorem sp_corr_noteCorr (s : State) (sp : SpId) :
    ((noteCorr s sp).sp sp).corr = s.time :: (s.sp sp).corr.filter fun n => s.time < n + 86400000000000 := by
  unfold noteCorr
  rw [State.sp_modSp]
  rfl

theorem execCorrectableError_counted (l : ErrLoc) (sp : SpId) (s : State) :
    ∃ t, execCorrectableError l s = .next t ∧ Counted s t l
      ∧ (l = .spData sp ∨ l = .spControl sp →
          (t.sp sp).corr = s.time :: (s.sp sp).corr.filter fun n => s.time < n + 86400000000000) := by
  have hc := countError_counted s l
  refine ⟨_, rfl, ?_, fun h => ?_⟩
  · cases l
    case spData i => exact noteCorr_counted hc i
    case spControl i => exact noteCorr_counted hc i
    all_goals exact hc
  · obtain rfl | rfl := h
    · exact sp_corr_noteCorr (countError s _) sp
    · exact sp_corr_noteCorr (countError s _) sp

/-! ## Poison (R14, R245) -/

theorem hbmPlace_interleaved {s : State} {pa : Nat} (h : pa < interTop s.dev.memsplit) :
    hbmPlace s pa = ⟨pa / 256 % 4, pa / 256 / 4 % 3, pa / 256 / 12 % 32, pa / 256 / 384 * 256 + pa % 256⟩ := by
  unfold hbmPlace
  exact if_pos h

theorem execUncorrectableError_hbm (pa : Nat) (s : State) :
    ∃ t, execUncorrectableError (.hbm pa) s = .next t ∧ t.mem = s.mem
        ∧ (pa < hbmTop → pa / 64 ∈ t.dev.poison) ∧ ∀ w, w ≠ pa / 64 → (w ∈ t.dev.poison ↔ w ∈ s.dev.poison) := by
  refine ⟨_, rfl, ?_⟩
  dsimp only
  split
  · exact ⟨rfl, fun _ => List.mem_cons_self .., fun w hw => by simp [State.modDev, hw]⟩
  · rename_i h
    refine ⟨rfl, fun hp => ?_, fun _ _ => Iff.rfl⟩
    refine Decidable.byContradiction fun hm => ?_
    exact h ⟨hp, by simpa using hm⟩

/-! ## Retirement (R246) -/

theorem execUncorrectableError_spControl (sp : SpId) (s : State) :
    ∃ t, execUncorrectableError (.spControl sp) s = .next t ∧ (t.sp sp).retired = true := by
  refine ⟨_, rfl, ?_⟩
  dsimp only
  split
  · assumption
  · exact retireSp_retired s sp

theorem execSpRetired_of_many {sp : SpId} {s : State} (h : (s.sp sp).retired = false)
    (hn : 1000 < ((s.sp sp).corr.filter fun n => s.time < n + 86400000000000).length) :
    ∃ t, execSpRetired sp s = .next t ∧ (t.sp sp).retired = true := by
  have hd : decide (1000 < ((s.sp sp).corr.filter fun n => decide (s.time < n + dayNs)).length) = true := decide_eq_true hn
  unfold execSpRetired
  dsimp only
  rw [h, hd]
  exact ⟨_, rfl, retireSp_retired s sp⟩

theorem execSpRetired_of_few {sp : SpId} {s : State}
    (hn : 1000 ≥ ((s.sp sp).corr.filter fun n => s.time < n + 86400000000000).length) :
    execSpRetired sp s = .refused (.notEnabled "SP_RETIRED") := by
  have hd : decide (1000 < ((s.sp sp).corr.filter fun n => decide (s.time < n + dayNs)).length) = false :=
    decide_eq_false (Nat.not_lt.mpr hn)
  unfold execSpRetired
  dsimp only
  rw [hd, Bool.and_false]
  rfl

/-! ## Fenced cores (R238) -/

theorem replay_cores (s : State) (w : WorkRec) : (replay s w).cores = s.cores := by
  unfold replay
  split <;> rfl

/-- The core that takes over is another one, and it is not fenced. -/
theorem successor_some {s : State} {c i : CoreId} (h : successor s c = some i) :
    i ≠ c ∧ (s.eqx i).status ≠ .fenced := by
  unfold successor at h
  extract_lets is at h
  have key : ∀ {x : CoreStatus}, x ≠ .fenced → is x i = true → i ≠ c ∧ (s.eqx i).status ≠ .fenced := by
    intro x hx hi
    simp only [is, Bool.and_eq_true, decide_eq_true_eq, bne_iff_ne] at hi
    obtain ⟨⟨hc, hs⟩, -⟩ := hi
    exact ⟨hc, hs ▸ hx⟩
  split at h
  · rename_i j hj
    cases h
    have hi := List.find?_some hj
    rw [Bool.and_eq_true] at hi
    exact key (by decide) hi.1
  · split at h
    · rename_i j hj
      cases h
      exact key (by decide) (List.find?_some hj)
    · exact key (by decide) (List.find?_some h)

/-- The core is fenced, and what was fenced before stays fenced. -/
theorem fenceCore_status (s : State) (c : CoreId) :
    ((fenceCore s c).eqx c).status = .fenced
      ∧ ∀ i, (s.eqx i).status = .fenced → ((fenceCore s c).eqx i).status = .fenced := by
  unfold fenceCore
  extract_lets left s1
  have h1 : s1.cores = (s.modEqx c fun x => { x with status := .fenced }).cores := (emit_devWrote ..).cores
  have hc : (s1.eqx c).status = .fenced := by
    rw [State.eqx, h1]
    exact congrArg Core.status (State.eqx_modEqx s c _)
  have hi : ∀ i, (s.eqx i).status = .fenced → (s1.eqx i).status = .fenced := by
    intro i h
    by_cases e : i = c
    · exact e ▸ hc
    · rw [State.eqx, h1]
      exact (congrArg Core.status (State.eqx_modEqx_ne s c i _ e)).trans h
  split
  · exact ⟨hc, hi⟩
  · rename_i j hj
    obtain ⟨hjc, hjs⟩ := successor_some hj
    have keep : ∀ (f : Core → Core) (i : CoreId), i ≠ j →
        (left.foldl replay (s1.modEqx j f)).eqx i = s1.eqx i := by
      intro f i e
      rw [State.eqx, foldl_keeps State.cores replay_cores]
      exact State.eqx_modEqx_ne s1 j i f e
    refine ⟨?_, fun i h => ?_⟩
    · rw [keep _ c hjc.symm]; exact hc
    · rw [keep _ i fun e => hjs (e ▸ h)]; exact hi i h

theorem execEqxImemEcc_of_not_fenced {c : CoreId} {s : State} (h : (s.eqx c).status ≠ .fenced) :
    ∃ t, execEqxImemEcc c s = .next t ∧ (t.eqx c).status = .fenced
        ∧ ∀ i, (s.eqx i).status = .fenced → (t.eqx i).status = .fenced := by
  unfold execEqxImemEcc
  rw [if_neg h]
  exact ⟨_, rfl, fenceCore_status s c⟩

theorem execScrub_of_due {s : State} (h : (s.dev.scrubs + 1) * 86400000000000 ≤ s.time) :
    execScrub s = .next (s.modDev fun d => { d with scrubs := s.dev.scrubs + 1 }) := by
  unfold execScrub
  rw [if_pos (show (s.dev.scrubs + 1) * dayNs ≤ s.time from h)]
  rfl

/-! ## Queue tables (R239) -/

theorem userQueue_of_single {s : State} {x : CtxId} {q : UserQueue} (h : (s.ctx x).queues = [q]) :
    userQueue s x q.qid = some q := by
  simp [userQueue, h]

theorem ctx_queues_modQueue_of_single {s : State} {x : CtxId} {q : UserQueue} (h : (s.ctx x).queues = [q])
    (f : UserQueue → UserQueue) : ((modQueue s x q.qid f).ctx x).queues = [f q] := by
  unfold modQueue
  rw [State.ctx_modCtx, h]
  simp

/-- The only queue of a context has one bad copy, which its read restores by `f`; the kick table may be restored besides. -/
theorem execQueueTableRestored_of_single {s : State} {x : CtxId} {q : UserQueue} (h : (s.ctx x).queues = [q])
    (copyB : Bool) (hq : oneBad copyB q.aBad q.bBad = true) :
    ∃ t, execQueueTableRestored x q.qid copyB s = .next t
      ∧ (t.ctx x).queues = [if copyB then { q with b := q.a, bBad := false } else { q with a := q.b, aBad := false }] := by
  unfold execQueueTableRestored
  rw [userQueue_of_single h]
  dsimp only
  rw [hq, Bool.true_or, if_pos rfl, if_pos rfl]
  refine ⟨_, rfl, ?_⟩
  rw [State.ctx, (emitQueue_devWrote ..).ctxs]
  have hm := ctx_queues_modQueue_of_single h fun y =>
    if copyB then { y with b := y.a, bBad := false } else { y with a := y.b, aBad := false }
  split
  · refine (congrArg Ctx.queues (State.ctx_modCtx ..)).trans ?_
    cases copyB <;> exact hm
  · exact hm

/-- Settles O59: each error's effect is stated once by the lemmas above; here they are put together. -/
theorem eccErrors : Obligations.EccErrors := by
  unfold Obligations.EccErrors
  intro l pa sp c x qid q s count unit
  have hu : unit = errSource s l := by cases l <;> rfl
  refine ⟨?_, fun _ h => ⟨?_, ?_⟩, execUncorrectableError_hbm pa s, rfl, execUncorrectableError_spControl sp s,
    execSpRetired_of_many, execSpRetired_of_few, execEqxImemEcc_of_not_fenced, execScrub_of_due, fun hs hq => ?_⟩
  · obtain ⟨t, he, hc, hn⟩ := execCorrectableError_counted l sp s
    refine ⟨t, he, ?_, ?_, ?_, ?_, hc.sps, hn, ?_, ?_⟩
    · rw [hc.rest]
    · rw [hc.rest]
    · rw [hu]; exact hc.one
    · rw [hu]; exact hc.other
    · rw [hc.rest]
    · rw [hc.rest]
  · rw [controllerOf, hbmPlace_interleaved h]; rfl
  · rw [hbmPlace_interleaved h]
  · subst hq
    refine ⟨fun ha hb => ?_, fun hb ha => ?_⟩
    · exact execQueueTableRestored_of_single hs false (by simp [oneBad, ha, hb])
    · exact execQueueTableRestored_of_single hs true (by simp [oneBad, ha, hb])

end Sys2Proof.Machine
end

section
/-! PROOF. Powers of two, the magnitudes of a format in rising order, and the nearest of them (R116, R130). -/

namespace Sys2Proof.Machine

open Sys2Proof

/-! ## Powers of two -/

theorem ratTwo_pow_pos (n : Nat) : 0 < (2 : Rat) ^ n := Rat.pow_pos (by decide)

theorem ratTwo_pow_succ (n : Nat) : (2 : Rat) ^ (n + 1) = (2 : Rat) ^ n * 2 := Rat.pow_succ 2 n

theorem ratTwo_pow_eq_natCast (n : Nat) : (2 : Rat) ^ n = ((2 ^ n : Nat) : Rat) := by
  induction n with
  | zero => exact Rat.pow_zero 2
  | succ n ih => rw [ratTwo_pow_succ, ih, Nat.pow_succ, Rat.natCast_mul]; rfl

theorem pow2_pos (e : Int) : 0 < pow2 e := by
  unfold pow2
  split
  · rw [Rat.div_def, Rat.one_mul]
    exact Rat.inv_pos.mpr (ratTwo_pow_pos _)
  · exact ratTwo_pow_pos _

theorem pow2_natCast (n : Nat) : pow2 n = ((2 ^ n : Nat) : Rat) := by
  unfold pow2
  rw [if_neg (by omega), Int.toNat_natCast, ratTwo_pow_eq_natCast]

theorem pow2_zero : pow2 0 = 1 := pow2_natCast 0

theorem pow2_neg_natCast (n : Nat) : pow2 (-(n : Int)) = 1 / (2 : Rat) ^ n := by
  cases n with
  | zero =>
    have h : (2 : Rat) ^ 0 = 1 := Rat.pow_zero 2
    rw [h, show (-((0 : Nat) : Int)) = 0 from rfl, pow2_zero]
    grind
  | succ n =>
    unfold pow2
    rw [if_pos (by omega), Int.neg_neg, Int.toNat_natCast]

theorem pow2_succ (e : Int) : pow2 (e + 1) = pow2 e * 2 := by
  rcases Int.lt_or_le e 0 with h | h
  · obtain ⟨n, hn⟩ := Int.eq_ofNat_of_zero_le (show 0 ≤ -e - 1 by omega)
    have e1 : e = -((n + 1 : Nat) : Int) := by omega
    have e2 : e + 1 = -(n : Int) := by omega
    have hp := ratTwo_pow_pos n
    rw [e2, e1, pow2_neg_natCast, pow2_neg_natCast, ratTwo_pow_succ]
    generalize (2 : Rat) ^ n = x at hp
    grind
  · obtain ⟨n, rfl⟩ := Int.eq_ofNat_of_zero_le h
    have hn := pow2_natCast (n + 1)
    rw [Nat.pow_succ, Rat.natCast_mul, ← pow2_natCast] at hn
    exact hn

theorem pow2_add_natCast (e : Int) (n : Nat) : pow2 (e + n) = ((2 ^ n : Nat) : Rat) * pow2 e := by
  induction n with
  | zero => simp
  | succ n ih =>
    rw [Int.natCast_succ, ← Int.add_assoc, pow2_succ, ih, Nat.pow_succ, Rat.natCast_mul]
    grind

/-- A power of two as a whole multiple of a lower one. -/
theorem pow2_split {a b : Int} (h : b ≤ a) : pow2 a = ((2 ^ (a - b).toNat : Nat) : Rat) * pow2 b := by
  rw [← pow2_add_natCast]
  congr 1
  omega

theorem pow2_add (a b : Int) : pow2 (a + b) = pow2 a * pow2 b := by
  rcases Int.le_total 0 b with h | h
  · obtain ⟨n, rfl⟩ := Int.eq_ofNat_of_zero_le h
    rw [pow2_add_natCast, pow2_natCast, Rat.mul_comm]
  · obtain ⟨n, hn⟩ := Int.eq_ofNat_of_zero_le (Int.neg_nonneg_of_nonpos h)
    have h1 := pow2_add_natCast (a + b) n
    have h2 := pow2_add_natCast b n
    rw [show a + b + n = a by omega] at h1
    rw [show b + n = 0 by omega, pow2_zero] at h2
    generalize ((2 ^ n : Nat) : Rat) = x at h1 h2
    grind

theorem one_le_two_pow_cast (n : Nat) : (1 : Rat) ≤ ((2 ^ n : Nat) : Rat) :=
  Rat.natCast_le_natCast.mpr (Nat.one_le_two_pow (n := n))

theorem pow2_le {a b : Int} (h : a ≤ b) : pow2 a ≤ pow2 b := by
  rw [pow2_split h]
  have := Rat.mul_le_mul_of_nonneg_right (one_le_two_pow_cast (b - a).toNat) (Rat.le_of_lt (pow2_pos a))
  rwa [Rat.one_mul] at this

/-! ## How far two values lie apart -/

theorem gap_of_le {x y : Rat} (h : x ≤ y) : gap x y = y - x := by
  unfold gap
  split <;> grind

theorem gap_of_ge {x y : Rat} (h : y ≤ x) : gap x y = x - y := by
  unfold gap
  rw [if_neg (Rat.not_lt.mpr h)]

/-! ## Magnitudes: the codes without their sign, in order -/

/-- The value of a code without sign, unbounded above. -/
def FFmt.mag (f : FFmt) (c : Nat) : Rat :=
  ((c % 2 ^ f.mb + if c / 2 ^ f.mb = 0 then 0 else 2 ^ f.mb : Nat) : Rat) * pow2 (f.qmin + (c / 2 ^ f.mb - 1 : Nat))

/-- A code of binade `k + 1`. -/
theorem FFmt.mag_normal (f : FFmt) (k r : Nat) (hr : r < 2 ^ f.mb) :
    f.mag (r + 2 ^ f.mb * (k + 1)) = ((r + 2 ^ f.mb : Nat) : Rat) * pow2 (f.qmin + k) := by
  have hB : 0 < 2 ^ f.mb := Nat.two_pow_pos f.mb
  unfold FFmt.mag
  rw [Nat.add_mul_div_left _ _ hB, Nat.add_mul_mod_self_left, Nat.div_eq_of_lt hr, Nat.mod_eq_of_lt hr,
    if_neg (by omega), Nat.zero_add, Nat.add_sub_cancel]

/-- In steps of 2^(qmin + k), the codes count on from one binade into the next. -/
theorem FFmt.mag_binade (f : FFmt) (k n : Nat) (hn : n ≤ 2 * 2 ^ f.mb) (hk : k = 0 ∨ 2 ^ f.mb ≤ n) :
    f.mag (k * 2 ^ f.mb + n) = n * pow2 (f.qmin + k) := by
  have hB : 0 < 2 ^ f.mb := Nat.two_pow_pos f.mb
  rcases Nat.lt_or_ge n (2 ^ f.mb) with h | h
  · obtain rfl : k = 0 := by omega
    simp [FFmt.mag, Nat.div_eq_of_lt h, Nat.mod_eq_of_lt h]
  · have step : 2 ^ f.mb * (k + 1) = k * 2 ^ f.mb + 2 ^ f.mb := by rw [Nat.mul_succ, Nat.mul_comm]
    rcases Nat.lt_or_ge n (2 * 2 ^ f.mb) with h2 | h2
    · have e : k * 2 ^ f.mb + n = (n - 2 ^ f.mb) + 2 ^ f.mb * (k + 1) := by omega
      rw [e, f.mag_normal k _ (by omega), Nat.sub_add_cancel h]
    · have step2 : 2 ^ f.mb * (k + 1 + 1) = 2 ^ f.mb * (k + 1) + 2 ^ f.mb := Nat.mul_succ ..
      have e : k * 2 ^ f.mb + n = 0 + 2 ^ f.mb * (k + 1 + 1) := by omega
      obtain rfl : n = 2 * 2 ^ f.mb := by omega
      rw [e, f.mag_normal (k + 1) 0 hB, Int.natCast_succ, ← Int.add_assoc, pow2_succ, Nat.zero_add, Rat.natCast_mul]
      grind

/-- The step from a code to the next. -/
theorem FFmt.mag_succ (f : FFmt) (c : Nat) :
    f.mag c + pow2 (f.qmin + (c / 2 ^ f.mb - 1 : Nat)) = f.mag (c + 1) := by
  have hB : 0 < 2 ^ f.mb := Nat.two_pow_pos f.mb
  obtain ⟨k, n, hk, hc, hn, hl⟩ : ∃ k n, c / 2 ^ f.mb - 1 = k ∧ c = k * 2 ^ f.mb + n ∧ n + 1 ≤ 2 * 2 ^ f.mb
      ∧ (k = 0 ∨ 2 ^ f.mb ≤ n) := by
    have hd := Nat.div_add_mod c (2 ^ f.mb)
    have hm := Nat.mod_lt c hB
    generalize 2 ^ f.mb = B at *
    rcases hq : c / B with _ | k
    · exact ⟨0, c, rfl, by omega, by rw [hq] at hd; omega, .inl rfl⟩
    · have : B * (k + 1) = k * B + B := by rw [Nat.mul_succ, Nat.mul_comm]
      exact ⟨k, B + c % B, rfl, by rw [hq] at hd; omega, by omega, .inr (by omega)⟩
  rw [hk, hc, f.mag_binade k n (by omega) hl, Nat.add_assoc, f.mag_binade k (n + 1) hn (by omega), Rat.natCast_add]
  grind

theorem FFmt.mag_add_le (f : FFmt) (a n : Nat) : f.mag a ≤ f.mag (a + n) := by
  induction n with
  | zero => exact Rat.le_refl
  | succ n ih =>
    have h1 := f.mag_succ (a + n)
    have h2 := pow2_pos (f.qmin + ((a + n) / 2 ^ f.mb - 1 : Nat))
    rw [← Nat.add_assoc]
    grind

theorem FFmt.mag_le (f : FFmt) {a b : Nat} (h : a ≤ b) : f.mag a ≤ f.mag b := by
  have := f.mag_add_le a (b - a)
  rwa [Nat.add_sub_cancel' h] at this

theorem FFmt.mag_lt (f : FFmt) {a b : Nat} (h : a < b) : f.mag a < f.mag b := by
  have h1 := f.mag_succ a
  have h2 := pow2_pos (f.qmin + (a / 2 ^ f.mb - 1 : Nat))
  have h3 := f.mag_le (Nat.succ_le_of_lt h)
  grind

theorem FFmt.mag_zero (f : FFmt) : f.mag 0 = 0 := by simp [FFmt.mag]

theorem FFmt.mag_nonneg (f : FFmt) (c : Nat) : 0 ≤ f.mag c := by
  rw [← f.mag_zero]
  exact f.mag_le (Nat.zero_le c)

/-! ## The nearest magnitude -/

/-- `c` is the even-tie nearest of the two codes between which a magnitude lies. -/
structure FFmt.Nearest (f : FFmt) (v : Rat) (c : Nat) : Prop where
  near : ∀ d, gap (f.mag c) v ≤ gap (f.mag d) v
  tie  : ∀ d, gap (f.mag c) v = gap (f.mag d) v → f.mag c = f.mag d ∨ c % 2 = 0

/-- Of two neighbouring codes `a`, `a + 1` around `v`, the lower is nearest when `v` lies in the lower half, and on the middle if it
is even. -/
theorem FFmt.nearest_lower (f : FFmt) {v : Rat} {a : Nat} (h0 : f.mag a ≤ v) (h1 : v < f.mag (a + 1))
    (hh : v - f.mag a ≤ f.mag (a + 1) - v) (he : v - f.mag a = f.mag (a + 1) - v → a % 2 = 0) : f.Nearest v a := by
  have low : ∀ d, d ≤ a → gap (f.mag d) v = v - f.mag d ∧ f.mag d ≤ f.mag a := fun d hd =>
    ⟨gap_of_le (Rat.le_trans (f.mag_le hd) h0), f.mag_le hd⟩
  have high : ∀ d, a + 1 ≤ d → gap (f.mag d) v = f.mag d - v ∧ f.mag (a + 1) ≤ f.mag d := fun d hd =>
    ⟨gap_of_ge (Rat.le_trans (Rat.le_of_lt h1) (f.mag_le hd)), f.mag_le hd⟩
  constructor <;> intro d <;> rw [(low a (Nat.le_refl a)).1] <;> rcases Nat.lt_or_ge a d with hd | hd
  · have := high d hd; grind
  · have := low d hd; grind
  · exact fun h => .inr (he (by have := high d hd; grind))
  · exact fun h => .inl (by have := low d hd; grind)

/-- The upper one is nearest when `v` lies in the upper half, and on the middle if it is even. -/
theorem FFmt.nearest_upper (f : FFmt) {v : Rat} {a : Nat} (h1 : v < f.mag (a + 1))
    (hh : f.mag (a + 1) - v ≤ v - f.mag a) (he : v - f.mag a = f.mag (a + 1) - v → (a + 1) % 2 = 0) :
    f.Nearest v (a + 1) := by
  have low : ∀ d, d ≤ a → gap (f.mag d) v = v - f.mag d ∧ f.mag d ≤ f.mag a := fun d hd =>
    ⟨gap_of_le (by have := f.mag_le hd; grind), f.mag_le hd⟩
  have high : ∀ d, a + 1 ≤ d → gap (f.mag d) v = f.mag d - v ∧ f.mag (a + 1) ≤ f.mag d := fun d hd =>
    ⟨gap_of_ge (Rat.le_trans (Rat.le_of_lt h1) (f.mag_le hd)), f.mag_le hd⟩
  constructor <;> intro d <;> rw [(high (a + 1) (Nat.le_refl _)).1] <;> rcases Nat.lt_or_ge a d with hd | hd
  · have := high d hd; grind
  · have := low d hd; grind
  · exact fun h => .inl (by have := high d hd; grind)
  · exact fun h => .inr (he (by have := low d hd; grind))

end Sys2Proof.Machine
end

section
/-! PROOF. Codes of an IEEE format: sign, magnitude, value (R116). -/

namespace Sys2Proof.Machine

open Sys2Proof

/-! ## Codes with their sign -/

/-- What an IEEE format has. -/
structure FFmt.Ieee (f : FFmt) : Prop where
  sp : f.sp = .ieee
  eb : 1 ≤ f.eb
  mb : 1 ≤ f.mb

theorem fp32_ieee : fp32.Ieee := ⟨rfl, by decide, by decide⟩

/-- The sign bit of a code. -/
def FFmt.sg (f : FFmt) (neg : Bool) : Nat := if neg then f.signBit else 0

/-- 1 or -1. -/
def sgn (neg : Bool) : Rat := if neg then -1 else 1

/-- Two values with one sign lie as far apart as without it. -/
theorem gap_sgn_mul (neg : Bool) (x y : Rat) : gap (sgn neg * x) (sgn neg * y) = gap x y := by
  unfold gap sgn
  cases neg <;> grind

/-- Two magnitudes with opposite signs lie as far apart as their sum. -/
theorem gap_sgn_mul_of_ne {a b : Bool} (h : a ≠ b) {x y : Rat} (hx : 0 ≤ x) (hy : 0 ≤ y) :
    gap (sgn a * x) (sgn b * y) = x + y := by
  unfold gap sgn
  cases a <;> cases b <;> grind

theorem NumVal.val_fin (neg : Bool) (m : Nat) (e : Int) : (NumVal.fin neg m e).val = sgn neg * (m * pow2 e) := by
  rw [← Rat.mul_assoc]; rfl

namespace FFmt.Ieee

variable {f : FFmt} (h : f.Ieee)
include h

theorem maxCode_eq : f.maxCode = (2 ^ f.eb - 1) * 2 ^ f.mb - 1 := by simp [FFmt.maxCode, h.sp]

theorem maxCode_succ : f.maxCode + 1 = (2 ^ f.eb - 1) * 2 ^ f.mb := by
  have h1 : 2 ≤ 2 ^ f.eb := Nat.le_self_pow (by have := h.eb; omega) 2
  have h2 : 0 < (2 ^ f.eb - 1) * 2 ^ f.mb := Nat.mul_pos (by omega) (Nat.two_pow_pos _)
  rw [h.maxCode_eq]
  omega

theorem maxCode_lt_signBit : f.maxCode < f.signBit := by
  have h1 := h.maxCode_succ
  have h2 : (2 ^ f.eb - 1) * 2 ^ f.mb ≤ f.signBit := by
    rw [FFmt.signBit, Nat.pow_add]
    exact Nat.mul_le_mul_right _ (Nat.sub_le ..)
  omega

theorem signBit_even : f.signBit % 2 = 0 := by
  obtain ⟨n, hn⟩ : ∃ n, f.eb + f.mb = n + 1 := ⟨f.eb + f.mb - 1, by have := h.eb; omega⟩
  rw [FFmt.signBit, hn, Nat.pow_succ]
  omega

theorem two_dvd_binade : 2 ^ f.mb % 2 = 0 := by
  obtain ⟨n, hn⟩ : ∃ n, f.mb = n + 1 := ⟨f.mb - 1, by have := h.mb; omega⟩
  rw [hn, Nat.pow_succ]
  omega

theorem sg_even (neg : Bool) : f.sg neg % 2 = 0 := by
  cases neg
  · rfl
  · exact h.signBit_even

theorem div_lt_of_le_maxCode {c : Nat} (hc : c ≤ f.maxCode) : c / 2 ^ f.mb < 2 ^ f.eb - 1 :=
  (Nat.div_lt_iff_lt_mul (Nat.two_pow_pos _)).mpr (by have := h.maxCode_succ; omega)

theorem decode_code (neg : Bool) {c : Nat} (hc : c ≤ f.maxCode) :
    f.decode (c + f.sg neg) = .fin neg (c % 2 ^ f.mb + if c / 2 ^ f.mb = 0 then 0 else 2 ^ f.mb)
      (f.qmin + (c / 2 ^ f.mb - 1 : Nat)) := by
  have hs := h.maxCode_lt_signBit
  have hd := h.div_lt_of_le_maxCode hc
  have hm : (c + f.sg neg) % f.signBit = c := by
    cases neg
    · exact Nat.mod_eq_of_lt (by simp [FFmt.sg]; omega)
    · simp only [FFmt.sg, if_true, Nat.add_mod_right]
      exact Nat.mod_eq_of_lt (by omega)
  have hn : ((c + f.sg neg) / f.signBit % 2 == 1) = neg := by
    have hp : 0 < f.signBit := Nat.two_pow_pos _
    cases neg
    · simp [FFmt.sg, Nat.div_eq_of_lt (show c < f.signBit by omega)]
    · simp [FFmt.sg, Nat.add_div_right c hp, Nat.div_eq_of_lt (show c < f.signBit by omega)]
  unfold FFmt.decode
  simp only [hm, hn, h.sp]
  rw [if_neg (by omega), if_neg (by simp)]
  split
  · rename_i h0; simp [h0]
  · rw [Nat.add_comm]

theorem val_code (neg : Bool) {c : Nat} (hc : c ≤ f.maxCode) : f.val (c + f.sg neg) = sgn neg * f.mag c := by
  rw [FFmt.val, h.decode_code neg hc, NumVal.val_fin]
  rfl

theorem finite_iff {x : Nat} : f.finite x ↔ ∃ neg c, c ≤ f.maxCode ∧ x = c + f.sg neg := by
  have hs := h.maxCode_lt_signBit
  have hp : 0 < f.signBit := Nat.two_pow_pos _
  constructor
  · rintro ⟨hx, hf⟩
    have hd := Nat.div_add_mod x f.signBit
    have hm := Nat.mod_lt x hp
    have hq : x / f.signBit < 2 := (Nat.div_lt_iff_lt_mul hp).mpr hx
    refine ⟨x / f.signBit = 1, x % f.signBit, ?_, ?_⟩
    · refine Decidable.byContradiction fun hc => ?_
      have hb : x % f.signBit / 2 ^ f.mb = 2 ^ f.eb - 1 := by
        have h1 : 2 ^ f.eb - 1 ≤ x % f.signBit / 2 ^ f.mb :=
          (Nat.le_div_iff_mul_le (Nat.two_pow_pos _)).mpr (by have := h.maxCode_succ; omega)
        have h2 : x % f.signBit / 2 ^ f.mb < 2 ^ f.eb :=
          (Nat.div_lt_iff_lt_mul (Nat.two_pow_pos _)).mpr (by rw [← Nat.pow_add]; exact hm)
        omega
      unfold FFmt.decode at hf
      simp only [hb, h.sp, and_self, if_true] at hf
      split at hf <;> cases hf
    · rcases Nat.lt_or_ge (x / f.signBit) 1 with h0 | h1
      · have e : x / f.signBit = 0 := Nat.lt_one_iff.mp h0
        rw [e] at hd ⊢
        simp [FFmt.sg]; omega
      · have e : x / f.signBit = 1 := by omega
        rw [e] at hd ⊢
        simp [FFmt.sg]; omega
  · rintro ⟨neg, c, hc, rfl⟩
    refine ⟨?_, by rw [h.decode_code neg hc]; rfl⟩
    have : f.sg neg ≤ f.signBit := by unfold FFmt.sg; split <;> omega
    omega

theorem top_eq : f.top = f.mag f.maxCode := by
  have e := h.val_code false (Nat.le_refl f.maxCode)
  simpa [FFmt.top, FFmt.sg, sgn] using e

/-- The nearest magnitude, with the sign of the value, is the value rounded to nearest even. -/
theorem rounds_of_nearest (neg : Bool) {w : Rat} {c : Nat} (hw : 0 ≤ w) (hc : c ≤ f.maxCode) (hn : f.Nearest w c) :
    f.Rounds .rne (sgn neg * w) (c + f.sg neg) := by
  refine ⟨h.finite_iff.mpr ⟨neg, c, hc, rfl⟩, fun d hd => ?_⟩
  obtain ⟨dneg, b, hb, rfl⟩ := h.finite_iff.mp hd
  have even : c % 2 = 0 → (c + f.sg neg) % 2 = 0 := fun e => by have := h.sg_even neg; omega
  rw [h.val_code neg hc, h.val_code dneg hb, gap_sgn_mul]
  by_cases hs : dneg = neg
  · subst hs
    rw [gap_sgn_mul]
    exact ⟨hn.near b, fun e => (hn.tie b e).imp (congrArg _) even⟩
  · have h0 : gap (f.mag 0) w = w := by rw [f.mag_zero, gap_of_le hw]; grind
    have hz := hn.near 0
    have hb0 := f.mag_nonneg b
    rw [h0] at hz
    rw [gap_sgn_mul_of_ne hs hb0 hw]
    refine ⟨by grind, fun e => ?_⟩
    have eb : f.mag b = 0 := by grind
    refine (hn.tie 0 (by rw [h0]; grind)).imp (fun e4 => ?_) even
    rw [e4, f.mag_zero, eb, Rat.mul_zero, Rat.mul_zero]

end FFmt.Ieee

end Sys2Proof.Machine
end

section
/-! PROOF. `pack` rounds to nearest even, and its NX says that the code is not exact (R130). -/

namespace Sys2Proof.Machine

open Sys2Proof

/-! ## Rounding a magnitude -/

/-- `r` is `m * 2^e` rounded to nearest even as a multiple of 2^q, `n` its whole part; `x` says whether it is inexact. -/
structure RoundedAt (m : Nat) (e q : Int) (r : Nat) (x : Bool) (n : Nat) : Prop where
  below : n * pow2 q ≤ m * pow2 e
  above : (m : Rat) * pow2 e < (n + 1) * pow2 q
  half  : r = n ∧ (2 * (m * pow2 e) ≤ (2 * n + 1) * pow2 q) ∧ (2 * (m * pow2 e) = (2 * n + 1) * pow2 q → n % 2 = 0)
          ∨ r = n + 1 ∧ ((2 * n + 1) * pow2 q ≤ 2 * (m * pow2 e))
            ∧ (2 * (m * pow2 e) = (2 * n + 1) * pow2 q → n % 2 = 1)
  exact : x = false → (r : Rat) * pow2 q = m * pow2 e

/-- The increment of nearest even, by where the remainder lies. -/
theorem roundInc_rne (neg : Bool) (n r d : Nat) :
    (roundInc .rne neg n r d false = 0 ∧ 2 * r ≤ d ∧ (2 * r = d → n % 2 = 0))
      ∨ (roundInc .rne neg n r d false = 1 ∧ d ≤ 2 * r ∧ (2 * r = d → n % 2 = 1)) := by
  unfold roundInc
  dsimp only
  split
  · exact .inr ⟨rfl, by omega, by omega⟩
  · split
    · rw [if_neg Bool.false_ne_true]
      rcases Nat.mod_two_eq_zero_or_one n with h | h
      · exact .inl ⟨h, by omega, fun _ => h⟩
      · exact .inr ⟨h, by omega, fun _ => h⟩
    · exact .inl ⟨rfl, by omega, by omega⟩

/-- Rounding in a unit `u` of which both the value and the step are whole multiples. -/
theorem roundedAt_of_unit (neg : Bool) {m a d : Nat} {e q : Int} {u : Rat} (hu : 0 < u) (hd : 0 < d)
    (ha : (m : Rat) * pow2 e = a * u) (hq : pow2 q = d * u) :
    RoundedAt m e q (a / d + roundInc .rne neg (a / d) (a % d) d false) (a % d != 0) (a / d) := by
  have hm : d * (a / d) + a % d = a := Nat.div_add_mod a d
  have hr : a % d < d := Nat.mod_lt a hd
  have hc : (m : Rat) * pow2 e = (a / d : Nat) * (d * u) + (a % d : Nat) * u := by
    rw [ha, ← hm, Rat.natCast_add, Rat.natCast_mul, hm]
    grind
  generalize a / d = n at *
  generalize a % d = r at *
  have le : ∀ {x y : Nat}, x ≤ y → (x : Rat) * u ≤ y * u := fun h =>
    Rat.mul_le_mul_of_nonneg_right (Rat.natCast_le_natCast.mpr h) (Rat.le_of_lt hu)
  have lt : ∀ {x y : Nat}, x < y → (x : Rat) * u < y * u := fun h =>
    Rat.mul_lt_mul_of_pos_right (Rat.natCast_lt_natCast.mpr h) hu
  have two : ((2 * r : Nat) : Rat) * u = 2 * (r * u) := by rw [Rat.natCast_mul, Rat.mul_assoc]; rfl
  have hmid : 2 * ((m : Rat) * pow2 e) = (2 * n + 1) * pow2 q → 2 * r = d := by
    intro h
    rcases Nat.lt_trichotomy (2 * r) d with h1 | h1 | h1
    · have := lt h1; grind
    · exact h1
    · have := lt h1; grind
  refine ⟨?_, ?_, ?_, fun hx => ?_⟩
  · have := le (Nat.zero_le r)
    grind
  · have := lt hr
    grind
  · rcases roundInc_rne neg n r d with ⟨h0, hl, he⟩ | ⟨h1, hl, he⟩
    · have := le hl
      exact .inl ⟨by rw [h0]; rfl, by grind, fun h => he (hmid h)⟩
    · have := le hl
      exact .inr ⟨by rw [h1], by grind, fun h => he (hmid h)⟩
  · have h0 : r = 0 := by simpa using hx
    have hi : roundInc .rne neg n r d false = 0 := by
      rcases roundInc_rne neg n r d with ⟨h, -⟩ | ⟨-, hl, -⟩
      · exact h
      · omega
    rw [hi, hc, hq, h0, Nat.add_zero]
    grind

theorem roundAt_rne (neg : Bool) (m : Nat) (e q : Int) :
    ∃ n, RoundedAt m e q (roundAt .rne neg m e q false).1 (roundAt .rne neg m e q false).2 n := by
  unfold roundAt
  split
  case isTrue h =>
    refine ⟨m * 2 ^ (e - q).toNat, ?_⟩
    have k := roundedAt_of_unit neg (m := m) (a := m * 2 ^ (e - q).toNat) (d := 1) (e := e) (q := q) (pow2_pos q) Nat.one_pos
      (by rw [pow2_split h, Rat.natCast_mul, Rat.mul_assoc]) (Rat.one_mul _).symm
    simpa [Nat.mod_one, roundInc] using k
  case isFalse h =>
    dsimp only
    rw [Bool.or_false]
    exact ⟨_, roundedAt_of_unit neg (pow2_pos e) (Nat.two_pow_pos _) rfl (pow2_split (by omega))⟩

/-- Rounding to a multiple of the step of a binade gives a nearest code, and an exact one where nothing is marked. -/
theorem RoundedAt.nearest {f : FFmt} (h : f.Ieee) {m : Nat} {e : Int} {k r n : Nat} {x : Bool}
    (hr : RoundedAt m e (f.qmin + k) r x n) (hn : n < 2 * 2 ^ f.mb) (hk : k = 0 ∨ 2 ^ f.mb ≤ n) :
    f.Nearest (m * pow2 e) (k * 2 ^ f.mb + r) ∧ (x = false → f.mag (k * 2 ^ f.mb + r) = m * pow2 e) := by
  obtain ⟨hb, ha, hh, hx⟩ := hr
  have m0 : f.mag (k * 2 ^ f.mb + n) = n * pow2 (f.qmin + k) := f.mag_binade _ _ (Nat.le_of_lt hn) hk
  have m1 : f.mag (k * 2 ^ f.mb + n + 1) = (n + 1) * pow2 (f.qmin + k) := by
    rw [Nat.add_assoc, f.mag_binade k (n + 1) hn (by omega), Rat.natCast_add]
    rfl
  have even : (k * 2 ^ f.mb) % 2 = 0 := by
    rw [Nat.mul_mod, h.two_dvd_binade, Nat.mul_zero, Nat.zero_mod]
  rcases hh with ⟨rfl, hl, ht⟩ | ⟨rfl, hl, ht⟩
  · refine ⟨f.nearest_lower ?_ ?_ ?_ fun htie => ?_, fun hi => m0.trans (hx hi)⟩
    · rwa [m0]
    · rwa [m1]
    · rw [m0, m1]; grind
    · rw [m0, m1] at htie
      have := ht (by grind)
      omega
  · rw [← Nat.add_assoc]
    refine ⟨f.nearest_upper ?_ ?_ fun htie => ?_, fun hi => m1.trans (by rw [← hx hi, Rat.natCast_add]; rfl)⟩
    · rwa [m1]
    · rw [m0, m1]; grind
    · rw [m0, m1] at htie
      have := ht (by grind)
      omega

theorem pow2_log2_le {m : Nat} (hm : m ≠ 0) (e : Int) : pow2 (Nat.log2 m + e) ≤ m * pow2 e := by
  rw [pow2_add, pow2_natCast]
  exact Rat.mul_le_mul_of_nonneg_right (Rat.natCast_le_natCast.mpr (Nat.log2_self_le hm)) (Rat.le_of_lt (pow2_pos e))

theorem lt_pow2_log2_succ (m : Nat) (e : Int) : m * pow2 e < pow2 (Nat.log2 m + e + 1) := by
  rw [show Nat.log2 m + e + 1 = ((Nat.log2 m + 1 : Nat) : Int) + e by omega, pow2_add, pow2_natCast]
  exact Rat.mul_lt_mul_of_pos_right (Rat.natCast_lt_natCast.mpr Nat.lt_log2_self) (pow2_pos e)

theorem natCast_lt_of_mul_lt {a b : Nat} {u : Rat} (hu : 0 < u) (h : (a : Rat) * u < b * u) : a < b :=
  Rat.natCast_lt_natCast.mp (Rat.lt_of_mul_lt_mul_right h (Rat.le_of_lt hu))

/-- A nonzero magnitude rounds to a nearest one, below the first code that is too great; what is not exact is marked. -/
theorem FFmt.Ieee.round_nearest {f : FFmt} (h : f.Ieee) (neg : Bool) {m : Nat} (hm : m ≠ 0) (e : Int) :
    f.Nearest (m * pow2 e) (f.round .rne neg m e false).code
      ∧ ((f.round .rne neg m e false).inexact = false → f.mag (f.round .rne neg m e false).code = m * pow2 e) := by
  unfold FFmt.round
  extract_lets top qn q r code u tiny
  have htop : (Nat.log2 m : Int) + e = top := Int.add_comm ..
  obtain ⟨k, hq⟩ : ∃ k : Nat, q = f.qmin + k := ⟨(q - f.qmin).toNat, by omega⟩
  obtain ⟨n, hr⟩ := roundAt_rne neg m e q
  have hcode : code = k * 2 ^ f.mb + r.1 := by
    show (q - f.qmin).toNat * 2 ^ f.mb + r.1 = _
    rw [show (q - f.qmin).toNat = k by omega]
  change f.Nearest _ code ∧ (r.2 = false → f.mag code = _)
  have hlow := htop ▸ pow2_log2_le hm e
  have hhigh := htop ▸ lt_pow2_log2_succ m e
  have hn : n < 2 * 2 ^ f.mb := by
    refine natCast_lt_of_mul_lt (pow2_pos q) ?_
    have h1 : pow2 (top + 1) ≤ pow2 (q + (f.mb + 1 : Nat)) := pow2_le (by omega)
    rw [pow2_add_natCast, Nat.pow_succ, Nat.mul_comm] at h1
    have h2 := hr.below
    grind
  have hk : k = 0 ∨ 2 ^ f.mb ≤ n := by
    rcases Int.lt_or_le f.qmin qn with hlt | hle
    · refine .inr (Nat.le_of_lt_succ (natCast_lt_of_mul_lt (b := n + 1) (pow2_pos q) ?_))
      have h1 : pow2 top = ((2 ^ f.mb : Nat) : Rat) * pow2 q := by rw [← pow2_add_natCast]; congr 1; omega
      have h2 := hr.above
      rw [Rat.natCast_add]
      grind
    · exact .inl (by omega)
  rw [hcode]
  exact RoundedAt.nearest h (hq ▸ hr) hn hk

/-- What does not exceed the greatest finite value rounds to a finite code. -/
theorem FFmt.Nearest.le_maxCode {f : FFmt} {v : Rat} {c : Nat} (hn : f.Nearest v c) (hv : v ≤ f.mag f.maxCode) :
    c ≤ f.maxCode := by
  refine Decidable.byContradiction fun hc => ?_
  have hlt : f.mag f.maxCode < f.mag c := f.mag_lt (by omega)
  have hd := hn.near f.maxCode
  rw [gap_of_ge hv, gap_of_ge (Rat.le_of_lt (by grind))] at hd
  grind

/-- What `pack` gives: the value rounded to nearest even, with NX unless it is exact. -/
theorem FFmt.Ieee.pack_rounds {f : FFmt} (h : f.Ieee) (neg : Bool) (m : Nat) (e : Int)
    (hf : f.fits (NumVal.fin neg m e).val) :
    f.Rounds .rne (NumVal.fin neg m e).val (f.pack .rne neg m e false).1
      ∧ (f.val (f.pack .rne neg m e false).1 ≠ (NumVal.fin neg m e).val → (f.pack .rne neg m e false).2 &&& fNX ≠ 0) := by
  have hw : (0 : Rat) ≤ m * pow2 e := Rat.mul_nonneg Rat.natCast_nonneg (Rat.le_of_lt (pow2_pos e))
  have hle : (m : Rat) * pow2 e ≤ f.mag f.maxCode := by
    obtain ⟨h1, h2⟩ := hf
    rw [NumVal.val_fin, h.top_eq] at h1 h2
    cases neg <;> simp only [sgn, if_true, Bool.false_eq_true, if_false] at h1 h2 <;> grind
  rw [NumVal.val_fin]
  unfold FFmt.pack
  dsimp only
  split
  case isTrue hm =>
    subst hm
    have hz : f.Nearest ((0 : Nat) * pow2 e) 0 := by
      refine ⟨fun d => ?_, fun d _ => .inr rfl⟩
      have hzero : ((0 : Nat) : Rat) * pow2 e = 0 := Rat.zero_mul _
      rw [hzero, f.mag_zero, gap_of_ge (f.mag_nonneg d), gap_of_ge Rat.le_refl]
      have := f.mag_nonneg d
      grind
    have e0 := h.rounds_of_nearest neg hw (Nat.zero_le _) hz
    have v0 := h.val_code neg (Nat.zero_le f.maxCode)
    rw [Nat.zero_add] at e0 v0
    refine ⟨e0, fun hne => absurd ?_ hne⟩
    exact v0.trans (by simp [f.mag_zero])
  case isFalse hm =>
    obtain ⟨hn, hx⟩ := h.round_nearest neg hm e
    have hc := hn.le_maxCode hle
    rw [if_neg (by omega)]
    refine ⟨h.rounds_of_nearest neg hw hc hn, fun hne => ?_⟩
    have hi : (f.round .rne neg m e false).inexact = true := by
      refine Decidable.byContradiction fun hfalse => ?_
      refine hne ((h.val_code neg hc).trans ?_)
      rw [hx (by simpa using hfalse)]
    rw [hi]
    generalize (f.round .rne neg m e false).tiny = tiny
    change (flagIf (tiny && true) fUF ||| flagIf true fNX) &&& fNX ≠ 0
    cases tiny <;> decide

end Sys2Proof.Machine
end

section
/-! PROOF. The exact sum of products of an mma and its two roundings (R128, R330). -/

namespace Sys2Proof.Machine

open Sys2Proof

/-! ## Exact arithmetic -/

theorem NumVal.eq_fin_of_isFin {x : NumVal} (h : x.isFin = true) : ∃ n m e, x = .fin n m e := by
  cases x with
  | nan s => cases h
  | inf n => cases h
  | fin n m e => exact ⟨n, m, e, rfl⟩

theorem NumVal.isNan_of_isFin {x : NumVal} (h : x.isFin = true) : x.isNan = false := by
  obtain ⟨n, m, e, rfl⟩ := x.eq_fin_of_isFin h
  rfl

theorem NumVal.isInf_of_isFin {x : NumVal} (h : x.isFin = true) : x.isInf = false := by
  obtain ⟨n, m, e, rfl⟩ := x.eq_fin_of_isFin h
  rfl

theorem NumVal.isNan_of_isSNan {x : NumVal} (h : x.isSNan = true) : x.isNan = true := by
  cases x with
  | nan s => rfl
  | inf n => cases h
  | fin n m e => cases h

theorem ofSigned_val (v e : Int) (z : Bool) : (ofSigned v e z).val = v * pow2 e := by
  unfold ofSigned
  rw [NumVal.val_fin, ← Rat.mul_assoc]
  congr 1
  obtain ⟨n, rfl | rfl⟩ := Int.eq_nat_or_neg v
  · rcases Nat.eq_zero_or_pos n with rfl | hn
    · exact Rat.mul_zero _
    · rw [if_neg (by omega), decide_eq_false (by omega), Int.natAbs_natCast]
      exact Rat.one_mul _
  · rcases Nat.eq_zero_or_pos n with rfl | hn
    · exact Rat.mul_zero _
    · rw [if_neg (by omega), decide_eq_true (by omega), Int.natAbs_neg, Int.natAbs_natCast, Rat.intCast_neg]
      exact (Rat.neg_mul ..).trans (congrArg _ (Rat.one_mul _))

/-- A finite value in steps of a lower power of two. -/
theorem alignInt_mul_pow2 (n : Bool) (m : Nat) {e e0 : Int} (h : e0 ≤ e) :
    (alignInt n m e e0 : Rat) * pow2 e0 = (NumVal.fin n m e).val := by
  have hp : (2 : Int) ^ (e - e0).toNat = ((2 ^ (e - e0).toNat : Nat) : Int) := (Int.natCast_pow 2 _).symm
  have hv : (((m : Int) * 2 ^ (e - e0).toNat : Int) : Rat) * pow2 e0 = m * pow2 e := by
    rw [pow2_split h, hp, Rat.intCast_mul, Rat.intCast_natCast, Rat.intCast_natCast, Rat.mul_assoc]
  rw [NumVal.val_fin, ← hv]
  unfold alignInt
  cases n
  · exact (Rat.one_mul _).symm
  · exact (congrArg (· * pow2 e0) (Rat.intCast_neg _)).trans ((Rat.neg_mul ..).trans
      ((congrArg _ (Rat.one_mul _).symm).trans (Rat.neg_mul ..).symm))

theorem minExp_le (l : List NumVal) (e : Int) : minExp l e ≤ e := by
  induction l generalizing e with
  | nil => exact Int.le_refl e
  | cons x l ih =>
    cases x with
    | fin n m g => exact Int.le_trans (ih _) (Int.min_le_right g e)
    | nan s => exact ih e
    | inf n => exact ih e

theorem minExp_le_of_mem {l : List NumVal} {n : Bool} {m : Nat} {g : Int} (h : .fin n m g ∈ l) (e : Int) :
    minExp l e ≤ g := by
  induction l generalizing e with
  | nil => cases h
  | cons x l ih =>
    rcases List.mem_cons.mp h with rfl | hl
    · exact Int.le_trans (minExp_le l _) (Int.min_le_left g e)
    · cases x <;> exact ih hl _

theorem sumAt_mul_pow2 {e0 : Int} {l : List NumVal} (h : ∀ n m g, .fin n m g ∈ l → e0 ≤ g) :
    (sumAt e0 l : Rat) * pow2 e0 = (l.map NumVal.val).sum := by
  induction l with
  | nil => exact Rat.zero_mul _
  | cons x l ih =>
    have ih := ih fun n m g hm => h n m g (List.mem_cons_of_mem _ hm)
    cases x with
    | fin n m g =>
      rw [List.map_cons, List.sum_cons, ← ih, ← alignInt_mul_pow2 n m (h n m g (List.mem_cons_self ..))]
      exact (congrArg (· * pow2 e0) (Rat.intCast_add ..)).trans (Rat.add_mul ..)
    | nan s => exact ih.trans (Rat.zero_add _).symm
    | inf n => exact ih.trans (Rat.zero_add _).symm

theorem addNum_fin {a b : NumVal} (ha : a.isFin = true) (hb : b.isFin = true) (mode : Rnd) :
    (addNum mode a b).1.isFin = true ∧ (addNum mode a b).1.val = a.val + b.val ∧ (addNum mode a b).2 = 0 := by
  obtain ⟨s, m, e, rfl⟩ := a.eq_fin_of_isFin ha
  obtain ⟨t, n, g, rfl⟩ := b.eq_fin_of_isFin hb
  refine ⟨rfl, ?_, rfl⟩
  unfold addNum
  dsimp only
  rw [ofSigned_val, Rat.intCast_add, Rat.add_mul, alignInt_mul_pow2 s m (Int.min_le_left e g),
    alignInt_mul_pow2 t n (Int.min_le_right e g)]

theorem mulNum_fin {a b : NumVal} (ha : a.isFin = true) (hb : b.isFin = true) :
    (mulNum a b).1.isFin = true ∧ (mulNum a b).1.val = a.val * b.val := by
  obtain ⟨s, m, e, rfl⟩ := a.eq_fin_of_isFin ha
  obtain ⟨t, n, g, rfl⟩ := b.eq_fin_of_isFin hb
  refine ⟨rfl, ?_⟩
  unfold mulNum
  dsimp only
  rw [NumVal.val_fin, NumVal.val_fin, NumVal.val_fin, pow2_add]
  have hs : sgn (s != t) = sgn s * sgn t := by cases s <;> cases t <;> simp only [sgn] <;> grind
  rw [hs, Rat.natCast_mul]
  grind

/-! ## mma_elem -/

/-- The finite sum of the products, before the first rounding. -/
def prodSum (l : List (MElem × MElem)) : NumVal :=
  let ps := (l.map fun p => mulNum p.1.val p.2.val).map fun p => p.1
  ofSigned (sumAt (minExp ps 0) ps) (minExp ps 0) (!ps.isEmpty && ps.all fun x => x.isZero && x.neg)

/-- Both operands of every product are finite. -/
def AllFin (l : List (MElem × MElem)) : Prop := ∀ p ∈ l, p.1.val.isFin = true ∧ p.2.val.isFin = true

theorem prodSum_val {l : List (MElem × MElem)} (h : AllFin l) :
    (prodSum l).val = (l.map fun p => p.1.val.val * p.2.val.val).sum := by
  unfold prodSum
  extract_lets ps
  rw [ofSigned_val, sumAt_mul_pow2 fun n m g hm => minExp_le_of_mem hm 0]
  simp only [ps, List.map_map]
  refine congrArg List.sum (List.map_congr_left fun p hp => ?_)
  obtain ⟨h1, h2⟩ := h p hp
  exact (mulNum_fin h1 h2).2

/-- With finite operands, mma_elem rounds the sum of the products, adds the accumulator and rounds again. -/
theorem mmaElem_of_fin {acc : Nat} {l : List (MElem × MElem)} (ha : (fp32.decode acc).isFin = true) (h : AllFin l) :
    mmaElem acc l =
      (let c := fp32.ofNum .rne (prodSum l)
       let r := fp32.fin .rne (addNum .rne (fp32.decode acc) (fp32.decode c.1))
       (r.1, r.2 ||| c.2)) := by
  have hopn : (l.any fun p => p.1.val.isNan || p.2.val.isNan) = false :=
    List.any_eq_false.mpr fun p hp => by simp [NumVal.isNan_of_isFin (h p hp).1, NumVal.isNan_of_isFin (h p hp).2]
  have hzi : (l.any fun p => !p.1.val.isNan && !p.2.val.isNan && (mulNum p.1.val p.2.val).1.isNan) = false :=
    List.any_eq_false.mpr fun p hp => by simp [NumVal.isNan_of_isFin (mulNum_fin (h p hp).1 (h p hp).2).1]
  have hinf : ∀ f : NumVal → Bool, ((l.map fun p => mulNum p.1.val p.2.val).any fun x => x.1.isInf && f x.1) = false := by
    intro f
    refine List.any_eq_false.mpr fun x hx => ?_
    obtain ⟨p, hp, rfl⟩ := List.mem_map.mp hx
    simp [NumVal.isInf_of_isFin (mulNum_fin (h p hp).1 (h p hp).2).1]
  unfold mmaElem
  dsimp only
  rw [hopn, hzi, hinf fun x => !x.neg, hinf NumVal.neg, NumVal.isNan_of_isFin ha]
  simp only [Bool.or_false, Bool.and_false, Bool.false_eq_true, if_false, prodSum]

theorem FFmt.ofNum_of_fin {f : FFmt} {x : NumVal} (hf : f.Ieee) (h : x.isFin = true) (hx : f.fits x.val) :
    f.Rounds .rne x.val (f.ofNum .rne x).1
      ∧ (f.val (f.ofNum .rne x).1 ≠ x.val → (f.ofNum .rne x).2 &&& fNX ≠ 0) := by
  obtain ⟨n, m, e, rfl⟩ := x.eq_fin_of_isFin h
  exact hf.pack_rounds n m e hx

/-- A flag of one of two flag words is a flag of both together. -/
theorem or_and_ne_zero {a b x : KF} (h : a &&& x ≠ 0 ∨ b &&& x ≠ 0) : (a ||| b) &&& x ≠ 0 := by
  rw [BitVec.and_or_distrib_right]
  intro e
  obtain ⟨ha, hb⟩ := BitVec.or_eq_zero_iff.mp e
  exact h.elim (absurd ha) (absurd hb)

/-- R128, R330: one element of the accumulator after an mma of finite elements. -/
theorem mmaElem_rounds {acc : Nat} {l : List (MElem × MElem)} (ha : fp32.finite acc) (h : AllFin l)
    (hd : fp32.fits (l.map fun p => p.1.val.val * p.2.val.val).sum) :
    ∃ c, fp32.Rounds .rne (l.map fun p => p.1.val.val * p.2.val.val).sum c
      ∧ (fp32.fits (fp32.val acc + fp32.val c) →
        fp32.Rounds .rne (fp32.val acc + fp32.val c) (mmaElem acc l).1
        ∧ (fp32.val c ≠ (l.map fun p => p.1.val.val * p.2.val.val).sum
            ∨ fp32.val (mmaElem acc l).1 ≠ fp32.val acc + fp32.val c → (mmaElem acc l).2 &&& fNX ≠ 0)) := by
  rw [← prodSum_val h] at hd ⊢
  obtain ⟨hr, hx⟩ := FFmt.ofNum_of_fin fp32_ieee (show (prodSum l).isFin = true from rfl) hd
  obtain ⟨hsum, hval, hzero⟩ := addNum_fin ha.2 hr.1.2 .rne
  rw [mmaElem_of_fin ha.2 h]
  refine ⟨_, hr, fun hf => ?_⟩
  unfold FFmt.val at hf ⊢
  rw [← hval] at hf ⊢
  obtain ⟨hr2, hx2⟩ := FFmt.ofNum_of_fin fp32_ieee hsum hf
  refine ⟨hr2, fun hne => or_and_ne_zero (hne.symm.imp (fun h2 => or_and_ne_zero (.inl (hx2 h2))) hx)⟩

/-- A NaN in the accumulator or among the elements gives the default NaN. -/
theorem mmaElem_nan {acc : Nat} {l : List (MElem × MElem)}
    (h : (fp32.decode acc).isNan = true ∨ ∃ p ∈ l, p.1.val.isNan = true) : (mmaElem acc l).1 = fp32.nanCode := by
  have hn : ((fp32.decode acc).isNan || l.any fun p => p.1.val.isNan || p.2.val.isNan) = true := by
    rw [Bool.or_eq_true, List.any_eq_true]
    exact h.imp id fun ⟨p, hp, hp1⟩ => ⟨p, hp, by rw [hp1]; rfl⟩
  unfold mmaElem
  dsimp only
  rw [hn, Bool.true_or, Bool.true_or, if_pos rfl]

/-- With NV when it is a signalling one, or a block that decodes as NaN. -/
theorem mmaElem_invalid {acc : Nat} {l : List (MElem × MElem)}
    (h : (fp32.decode acc).isSNan = true ∨ ∃ p ∈ l, p.1.val.isNan = true ∧ p.1.nv = true) :
    (mmaElem acc l).1 = fp32.nanCode ∧ (mmaElem acc l).2 &&& fNV ≠ 0 := by
  have hn : (fp32.decode acc).isNan = true ∨ ∃ p ∈ l, p.1.val.isNan = true :=
    h.imp NumVal.isNan_of_isSNan fun ⟨p, hp, hp1, _⟩ => ⟨p, hp, hp1⟩
  have hnan : ((fp32.decode acc).isNan || l.any fun p => p.1.val.isNan || p.2.val.isNan) = true := by
    rw [Bool.or_eq_true, List.any_eq_true]
    exact hn.imp id fun ⟨p, hp, hp1⟩ => ⟨p, hp, by rw [hp1]; rfl⟩
  have hnv : ((fp32.decode acc).isSNan || l.any fun p => p.1.nv || p.2.nv) = true := by
    rw [Bool.or_eq_true, List.any_eq_true]
    exact h.imp id fun ⟨p, hp, _, hp1⟩ => ⟨p, hp, by rw [hp1]; rfl⟩
  refine ⟨mmaElem_nan hn, ?_⟩
  unfold mmaElem
  dsimp only
  rw [hnan, hnv]
  simp only [Bool.true_or, if_true]
  decide

end Sys2Proof.Machine
end

section
/-! PROOF. Elements, accumulators and flags: what reads back after a write. -/

namespace Sys2Proof.Machine

open Sys2Proof

/-! ## Elements of a joined word -/

theorem getLsbD_joinE (w : Nat) (f : Nat → BitVec w) (n b : Nat) (hw : 0 < w) :
    (joinE w f n).getLsbD b = (decide (b < w * n) && (f (b / w)).getLsbD (b % w)) := by
  induction n with
  | zero => simp [joinE]
  | succ n ih =>
    unfold joinE
    rw [BitVec.getLsbD_cast, BitVec.getLsbD_append, ih, Nat.mul_succ]
    by_cases h : b < w * n
    · simp [h, Nat.lt_add_right w h]
    · have hb : b = w * n + (b - w * n) := by omega
      simp only [h, decide_false, if_false]
      by_cases h2 : b - w * n < w
      · have hd : b / w = n := by
          rw [hb, Nat.mul_add_div hw, Nat.div_eq_of_lt h2, Nat.add_zero]
        have hm : b % w = b - w * n := by
          conv => lhs; rw [hb]
          rw [Nat.mul_add_mod, Nat.mod_eq_of_lt h2]
        rw [hd, hm, decide_eq_true (by omega), Bool.true_and]
      · rw [decide_eq_false (by omega), Bool.false_and]
        exact BitVec.getLsbD_of_ge _ _ (by omega)

theorem elemAt_joinE {w : Nat} (f : Nat → BitVec w) {n i : Nat} (hi : i < n) : elemAt w (joinE w f n) i = f i := by
  refine BitVec.eq_of_getLsbD_eq fun b hb => ?_
  have hw : 0 < w := by omega
  have hlt : w * i + b < w * n := by
    calc w * i + b < w * i + w := by omega
      _ = w * (i + 1) := (Nat.mul_succ ..).symm
      _ ≤ w * n := Nat.mul_le_mul_left w hi
  unfold elemAt
  rw [BitVec.getLsbD_extractLsb', getLsbD_joinE _ _ _ _ hw, decide_eq_true hlt, decide_eq_true hb,
    Nat.mul_add_div hw, Nat.div_eq_of_lt hb, Nat.add_zero, Nat.mul_add_mod, Nat.mod_eq_of_lt hb]
  rfl

/-! ## Accumulators (R104) -/

/-- Four registers side by side hold the accumulator of which they are the quarters. -/
theorem or_quarters (x : AccV) :
    (x.extractLsb' (32768 * 0) 32768).setWidth 131072 <<< (32768 * 0)
      ||| (x.extractLsb' (32768 * 1) 32768).setWidth 131072 <<< (32768 * 1)
      ||| (x.extractLsb' (32768 * 2) 32768).setWidth 131072 <<< (32768 * 2)
      ||| (x.extractLsb' (32768 * 3) 32768).setWidth 131072 <<< (32768 * 3) = x := by
  refine BitVec.eq_of_getLsbD_eq fun b hb => ?_
  have quarter : ∀ j : Nat, ((x.extractLsb' (32768 * j) 32768).setWidth 131072 <<< (32768 * j)).getLsbD b
      = (decide (b / 32768 = j) && x.getLsbD b) := by
    intro j
    rw [BitVec.getLsbD_shiftLeft, BitVec.getLsbD_setWidth, BitVec.getLsbD_extractLsb']
    by_cases h : b / 32768 = j
    · have e : 32768 * j + (b - 32768 * j) = b := by omega
      rw [e, decide_eq_true h, decide_eq_true hb, decide_eq_false (by omega : ¬ b < 32768 * j),
        decide_eq_true (by omega : b - 32768 * j < 131072), decide_eq_true (by omega : b - 32768 * j < 32768)]
      simp
    · rw [decide_eq_false h]
      by_cases h1 : b < 32768 * j
      · simp [h1]
      · rw [decide_eq_false (by omega : ¬ b - 32768 * j < 32768)]
        simp
  rw [BitVec.getLsbD_or, BitVec.getLsbD_or, BitVec.getLsbD_or, quarter, quarter, quarter, quarter]
  have h4 : b / 32768 = 0 ∨ b / 32768 = 1 ∨ b / 32768 = 2 ∨ b / 32768 = 3 := by omega
  rcases h4 with h | h | h | h <;> simp [h]

/-- Four registers from `b` on, written one after another, each read back. -/
theorem getElem_set_four (v : Vector VReg 32) (x : Nat → VReg) {b i : Nat} (hb : b + 3 < 32) (hi : i < 4) :
    ((((v.set (Fin.ofNat 32 (b + 0)) (x 0)).set (Fin.ofNat 32 (b + 1)) (x 1)).set (Fin.ofNat 32 (b + 2)) (x 2)).set
      (Fin.ofNat 32 (b + 3)) (x 3))[Fin.ofNat 32 (b + i)] = x i := by
  have hval : ∀ j : Nat, j < 4 → (Fin.ofNat 32 (b + j)).val = b + j := fun j hj => Nat.mod_eq_of_lt (by omega)
  simp only [Fin.getElem_fin, Vector.getElem_set, hval i hi, hval 0 (by omega), hval 1 (by omega), hval 2 (by omega),
    hval 3 (by omega), Nat.add_left_cancel_iff]
  obtain rfl | rfl | rfl | rfl : i = 0 ∨ i = 1 ∨ i = 2 ∨ i = 3 := by omega
  · rfl
  · rfl
  · rfl
  · rfl

theorem KCluster.accGet_accPut (k : KCluster) (a : BitVec 3) (x : AccV) :
    (k.accPut a x).accGet a = x := by
  unfold KCluster.accGet KCluster.accPut
  by_cases h : a.toNat < 4
  · simp [h]
  · have hb : (if a = 4 then 24 else 28) + 3 < 32 := by split <;> omega
    rw [dif_neg h, dif_neg h]
    dsimp only
    have read := fun {i : Nat} => getElem_set_four (i := i) k.v (fun i => x.extractLsb' (32768 * i) 32768) hb
    rw [read (i := 0) (by omega), read (i := 1) (by omega), read (i := 2) (by omega), read (i := 3) (by omega)]
    exact or_quarters x

theorem KCluster.accPut_kflags (k : KCluster) (a : BitVec 3) (x : AccV) : (k.accPut a x).kflags = k.kflags := by
  unfold KCluster.accPut
  split <;> rfl

/-! ## Flags -/

theorem foldl_or_eq (l : List KF) (z : KF) : l.foldl (· ||| ·) z = z ||| orFlags l := by
  unfold orFlags
  induction l generalizing z with
  | nil => simp
  | cons x l ih => rw [List.foldl_cons, List.foldl_cons, ih, ih (0 ||| x)]; simp [BitVec.or_assoc]

theorem orFlags_cons (x : KF) (l : List KF) : orFlags (x :: l) = x ||| orFlags l := by
  rw [orFlags, List.foldl_cons, foldl_or_eq]
  simp

/-- A flag of one word is a flag of all together. -/
theorem orFlags_and_ne_zero {l : List KF} {f x : KF} (h : f ∈ l) (hf : f &&& x ≠ 0) : orFlags l &&& x ≠ 0 := by
  induction l with
  | nil => cases h
  | cons y l ih =>
    rw [orFlags_cons]
    rcases List.mem_cons.mp h with rfl | hl
    · exact or_and_ne_zero (.inl hf)
    · exact or_and_ne_zero (.inr (ih hl))

theorem orFlags_eq_zero {l : List KF} (h : ∀ f ∈ l, f = 0) : orFlags l = 0 := by
  induction l with
  | nil => rfl
  | cons y l ih =>
    rw [orFlags_cons, h y (List.mem_cons_self ..), ih fun f hf => h f (List.mem_cons_of_mem _ hf)]
    rfl

end Sys2Proof.Machine
end

section
/-! PROOF. The operands of an mma as the rules speak of them (R119 to R122), and one element of its accumulator (R128, R330). -/

namespace Sys2Proof.Machine

open Sys2Proof

/-! ## Operands -/

/-- Bits of an element of an operand format. -/
def opBits (f : BitVec 4) : Nat := if f ≤ 1 then 16 else if f ≤ 3 then 8 else if f ≤ 5 then 6 else if f = 6 then 4 else 32

def opFmt (f : BitVec 4) : FFmt :=
  if f = 0 then bf16 else if f = 1 then fp16 else if f = 2 then e4m3 else if f = 3 then e5m2 else if f = 4 then e3m2
  else if f = 5 then e2m3 else fp32

/-- Elements of a line. -/
def opCount (f : BitVec 4) : Nat := if f ≤ 1 then 32 else if f = 6 then 128 else if f = 8 then 16 else 64

/-- The value of an element before its scale. -/
def opNum (f : BitVec 4) (d : VReg) (z : ZReg) (n q : Nat) : NumVal :=
  if f = 6 then sb4Num (d.extractLsb' (512 * n + opBits f * q) (opBits f)).toNat (zByte z (8 * n + 2 * (q / 32) + 1))
  else (opFmt f).decode (d.extractLsb' (512 * n + opBits f * q) (opBits f)).toNat

/-- The scale byte of an element; 127 stands for a scale of 1. -/
def opScale (f : BitVec 4) (z : ZReg) (n q : Nat) : Nat :=
  if 2 ≤ f ∧ f ≤ 5 then zByte z (2 * n + q / 32) else if f = 6 then zByte z (8 * n + 2 * (q / 32)) else 127

/-- The element's block decodes as NaN. -/
def OpBad (f : BitVec 4) (z : ZReg) (n q : Nat) : Prop :=
  opScale f z n q = 0xFF ∨ f = 6 ∧ (e4m3.decode (zByte z (8 * n + 2 * (q / 32) + 1))).isNan = true

/-- A floating format of an operand. -/
def OpFloat (f : BitVec 4) : Prop := f.toNat ≤ 6 ∨ f = 8

/-- The floating formats, by whether they carry block scales (R120 to R122). -/
theorem OpFloat.cases {f : BitVec 4} (h : OpFloat f) :
    (f = 0 ∨ f = 1 ∨ f = 8) ∨ (f = 2 ∨ f = 3 ∨ f = 4 ∨ f = 5) ∨ f = 6 := by
  unfold OpFloat at h
  revert f
  decide

theorem scaleNum_zero (x : NumVal) : scaleNum x 0 = x := by cases x <;> simp [scaleNum]

/-- An element of a block that decodes as NaN is a NaN that raises NV. -/
theorem opElem_of_bad {f : BitVec 4} (d : VReg) {z : ZReg} {i q : Nat} (hf : OpFloat f) (h : OpBad f z i q) :
    opElem f d z i q = ⟨.nan false, true⟩ := by
  unfold OpBad at h
  rcases hf.cases with hp | hs | rfl
  · exfalso
    rcases hp with rfl | rfl | rfl <;> simp [opScale] at h
  · have e : zByte z (2 * i + q / 32) = 0xFF := by
      rcases hs with rfl | rfl | rfl | rfl <;> simpa [opScale] using h
    rcases hs with rfl | rfl | rfl | rfl <;> exact if_pos e
  · refine if_pos ?_
    simpa [opScale] using h

/-- Any other element is its value times its scale; it raises NV where it is a signalling NaN of an unscaled format. -/
theorem opElem_of_good {f : BitVec 4} (d : VReg) {z : ZReg} {i q : Nat} (hf : OpFloat f) (h : ¬ OpBad f z i q) :
    opElem f d z i q =
      ⟨scaleNum (opNum f d z i q) ((opScale f z i q : Int) - 127),
        decide (f ≤ 1 ∨ f = 8) && (opNum f d z i q).isSNan⟩ := by
  unfold OpBad at h
  rcases hf.cases with hp | hs | rfl
  · have e : scaleNum (opNum f d z i q) ((opScale f z i q : Int) - 127) = opNum f d z i q := by
      rcases hp with rfl | rfl | rfl <;> simp [opScale, scaleNum_zero]
    rw [e]
    rcases hp with rfl | rfl | rfl <;> rfl
  · have e : zByte z (2 * i + q / 32) ≠ 0xFF := by
      rcases hs with rfl | rfl | rfl | rfl <;> simpa [opScale] using h
    rcases hs with rfl | rfl | rfl | rfl <;> exact if_neg e
  · refine if_neg ?_
    simpa [opScale] using h

/-- The value of an element with its scale. -/
def opVal (f : BitVec 4) (d : VReg) (z : ZReg) (n q : Nat) : Rat :=
  (opNum f d z n q).val * pow2 ((opScale f z n q : Int) - 127)

/-- A finite element. -/
def OpFinite (f : BitVec 4) (d : VReg) (z : ZReg) (n q : Nat) : Prop :=
  ¬ OpBad f z n q ∧ (opNum f d z n q).isFin = true

theorem scaleNum_val (x : NumVal) (e : Int) : (scaleNum x e).val = x.val * pow2 e := by
  cases x with
  | nan s => simp [scaleNum, NumVal.val]
  | inf n => simp [scaleNum, NumVal.val]
  | fin n m g =>
    rw [scaleNum, NumVal.val_fin, NumVal.val_fin, pow2_add]
    grind

theorem opElem_of_finite {f : BitVec 4} {d : VReg} {z : ZReg} {i q : Nat} (hf : OpFloat f) (h : OpFinite f d z i q) :
    (opElem f d z i q).val.isFin = true ∧ (opElem f d z i q).val.val = opVal f d z i q := by
  rw [opElem_of_good d hf h.1]
  refine ⟨?_, scaleNum_val ..⟩
  obtain ⟨n, m, e, hx⟩ := (opNum f d z i q).eq_fin_of_isFin h.2
  rw [hx]
  rfl

theorem opElem_of_nan {f : BitVec 4} {d : VReg} {z : ZReg} {i q : Nat} (hf : OpFloat f)
    (h : (opNum f d z i q).isNan = true) : (opElem f d z i q).val.isNan = true := by
  by_cases hb : OpBad f z i q
  · rw [opElem_of_bad d hf hb]
    rfl
  · rw [opElem_of_good d hf hb]
    cases hx : opNum f d z i q <;> simp_all [scaleNum, NumVal.isNan]

/-- What raises NV: an element of a bad block, or a signalling NaN of a format without scales. -/
theorem opElem_of_invalid {f : BitVec 4} {d : VReg} {z : ZReg} {i q : Nat} (hf : OpFloat f)
    (h : OpBad f z i q ∨ (f ≤ 1 ∨ f = 8) ∧ (opNum f d z i q).isSNan = true) :
    (opElem f d z i q).val.isNan = true ∧ (opElem f d z i q).nv = true := by
  by_cases hb : OpBad f z i q
  · rw [opElem_of_bad d hf hb]
    exact ⟨rfl, rfl⟩
  · obtain ⟨hp, hs⟩ := h.resolve_left hb
    refine ⟨opElem_of_nan hf (NumVal.isNan_of_isSNan hs), ?_⟩
    rw [opElem_of_good d hf hb, hs, decide_eq_true hp]
    rfl

theorem mmaK_eq_opCount {f : BitVec 4} (hf : OpFloat f) : mmaK f = opCount f := by
  unfold OpFloat at hf
  revert f
  decide

/-! ## One element of the accumulator -/

/-- The pairs of elements of which element (i, j) sums the products. -/
def MmaRun.pairs (r : MmaRun) (i j : Nat) : List (MElem × MElem) :=
  (List.range (opCount r.fa)).map fun q => (opElem r.fa r.capA r.sa i q, opElem r.fb r.capB r.sb j q)

theorem mmaOne_float {r : MmaRun} (hf : OpFloat r.fa) (acc : AccV) {i j : Nat} (hj : j < 64) :
    mmaOne r acc (64 * i + j) = mmaElem (elemAt 32 acc (64 * i + j)).toNat (r.pairs i j) := by
  have h7 : r.fa ≠ 7 := by
    intro e
    rw [e] at hf
    exact absurd hf (by unfold OpFloat; decide)
  have hi : (64 * i + j) / 64 = i := by omega
  have hm : (64 * i + j) % 64 = j := by omega
  unfold mmaOne MmaRun.pairs
  simp only [hi, hm, h7, if_false, mmaK_eq_opCount hf]

theorem landCl_mma (r : MmaRun) (k : KCluster) :
    landCl (.mma r) k =
      (k.accPut r.acc (mmaAll r (k.accGet r.acc)).1).flag (mmaAll r (k.accGet r.acc)).2 := rfl

theorem KCluster.accGet_flag (k : KCluster) (f : KF) (a : BitVec 3) : (k.flag f).accGet a = k.accGet a := rfl
theorem KCluster.kflags_flag (k : KCluster) (f : KF) : (k.flag f).kflags = k.kflags ||| f := rfl

theorem mmaAll_flags (r : MmaRun) (acc : AccV) :
    (mmaAll r acc).2 = orFlags ((List.range 4096).map fun e => (mmaOne r acc e).2) := by
  rw [mmaAll]

/-- What an mma leaves in an element of its accumulator. -/
theorem elemAt_landCl_mma (r : MmaRun) (k : KCluster) {e : Nat} (he : e < 4096) :
    elemAt 32 ((landCl (.mma r) k).accGet r.acc) e = BitVec.ofNat 32 (mmaOne r (k.accGet r.acc) e).1 := by
  rw [landCl_mma, KCluster.accGet_flag, KCluster.accGet_accPut]
  exact elemAt_joinE _ he

theorem kflags_landCl_mma (r : MmaRun) (k : KCluster) :
    (landCl (.mma r) k).kflags =
      k.kflags ||| orFlags ((List.range 4096).map fun e => (mmaOne r (k.accGet r.acc) e).2) := by
  rw [landCl_mma, KCluster.kflags_flag, KCluster.accPut_kflags, mmaAll_flags]

/-- A flag of one element is a flag of the cluster. -/
theorem kflags_landCl_mma_and {r : MmaRun} {k : KCluster} {x : KF} {e : Nat} (he : e < 4096)
    (h : (mmaOne r (k.accGet r.acc) e).2 &&& x ≠ 0) : (landCl (.mma r) k).kflags &&& x ≠ 0 := by
  rw [kflags_landCl_mma]
  exact or_and_ne_zero (.inr (orFlags_and_ne_zero (List.mem_map.mpr ⟨e, List.mem_range.mpr he, rfl⟩) h))

/-- The exact sum of the products of element (i, j). -/
def MmaRun.dot (r : MmaRun) (i j : Nat) : Rat :=
  ((List.range (opCount r.fa)).map fun q => opVal r.fa r.capA r.sa i q * opVal r.fb r.capB r.sb j q).sum

theorem MmaRun.pairs_finite {r : MmaRun} {i j : Nat} (ha : OpFloat r.fa) (hb : OpFloat r.fb)
    (h : ∀ q ∈ List.range (opCount r.fa), OpFinite r.fa r.capA r.sa i q ∧ OpFinite r.fb r.capB r.sb j q) :
    AllFin (r.pairs i j) ∧ ((r.pairs i j).map fun p => p.1.val.val * p.2.val.val).sum = r.dot i j := by
  refine ⟨fun p hp => ?_, ?_⟩
  · obtain ⟨q, hq, rfl⟩ := List.mem_map.mp hp
    exact ⟨(opElem_of_finite ha (h q hq).1).1, (opElem_of_finite hb (h q hq).2).1⟩
  · unfold MmaRun.pairs MmaRun.dot
    rw [List.map_map]
    refine congrArg List.sum (List.map_congr_left fun q hq => ?_)
    rw [← (opElem_of_finite ha (h q hq).1).2, ← (opElem_of_finite hb (h q hq).2).2]
    rfl

theorem fp32_finite_lt {c : Nat} (h : fp32.finite c) : c < 2 ^ 32 := h.1

section

variable {r : MmaRun} {k : KCluster} {i j : Nat} (hi : i < 64) (hj : j < 64) (ha : OpFloat r.fa)
include hi hj ha

/-- The code that mma_elem gives for element (i, j) is what the accumulator then holds. -/
theorem toNat_elemAt_landCl_mma {c : Nat}
    (hc : (mmaElem (elemAt 32 (k.accGet r.acc) (64 * i + j)).toNat (r.pairs i j)).1 = c) (hlt : c < 2 ^ 32) :
    (elemAt 32 ((landCl (.mma r) k).accGet r.acc) (64 * i + j)).toNat = c := by
  rw [elemAt_landCl_mma r k (by omega), mmaOne_float ha _ hj, hc, BitVec.toNat_ofNat, Nat.mod_eq_of_lt hlt]

/-- A flag that mma_elem raises for element (i, j) stands in KFLAGS. -/
theorem kflags_landCl_mma_of_elem {x : KF}
    (h : (mmaElem (elemAt 32 (k.accGet r.acc) (64 * i + j)).toNat (r.pairs i j)).2 &&& x ≠ 0) :
    (landCl (.mma r) k).kflags &&& x ≠ 0 :=
  kflags_landCl_mma_and (e := 64 * i + j) (by omega) (by rwa [mmaOne_float ha _ hj])

/-- R128, R330: with finite operands, the sum of the products is rounded once, and its sum with the accumulator once more. -/
theorem landCl_mma_rounds (hb : OpFloat r.fb)
    (hfin : ∀ q ∈ List.range (opCount r.fa), OpFinite r.fa r.capA r.sa i q ∧ OpFinite r.fb r.capB r.sb j q) :
    let old := (elemAt 32 (k.accGet r.acc) (64 * i + j)).toNat
    let t := landCl (.mma r) k
    let new := (elemAt 32 (t.accGet r.acc) (64 * i + j)).toNat
    fp32.finite old → fp32.fits (r.dot i j) →
      ∃ c, fp32.Rounds .rne (r.dot i j) c
        ∧ (fp32.fits (fp32.val old + fp32.val c) → fp32.Rounds .rne (fp32.val old + fp32.val c) new
          ∧ (fp32.val c ≠ r.dot i j ∨ fp32.val new ≠ fp32.val old + fp32.val c → t.kflags &&& fNX ≠ 0)) := by
  intro old t new hold hdot
  obtain ⟨hall, hsum⟩ := MmaRun.pairs_finite ha hb hfin
  rw [← hsum] at hdot ⊢
  obtain ⟨c, hc, hrest⟩ := mmaElem_rounds hold hall hdot
  refine ⟨c, hc, fun hfit => ?_⟩
  obtain ⟨hr, hx⟩ := hrest hfit
  have hnew : new = _ := toNat_elemAt_landCl_mma hi hj ha rfl (fp32_finite_lt hr.1)
  rw [hnew]
  exact ⟨hr, fun hne => kflags_landCl_mma_of_elem hi hj ha (hx hne)⟩

/-- R128: a NaN in the accumulator or among the elements of the row gives the default NaN. -/
theorem landCl_mma_nan
    (h : (fp32.decode (elemAt 32 (k.accGet r.acc) (64 * i + j)).toNat).isNan = true
      ∨ ∃ q ∈ List.range (opCount r.fa), (opNum r.fa r.capA r.sa i q).isNan = true) :
    (elemAt 32 ((landCl (.mma r) k).accGet r.acc) (64 * i + j)).toNat = fp32.nanCode := by
  refine toNat_elemAt_landCl_mma hi hj ha (mmaElem_nan (h.imp id ?_)) (by decide)
  rintro ⟨q, hq, hn⟩
  exact ⟨_, List.mem_map.mpr ⟨q, hq, rfl⟩, opElem_of_nan ha hn⟩

/-- R128: with NV for a signalling NaN and for a block that decodes as NaN. -/
theorem landCl_mma_invalid
    (h : (fp32.decode (elemAt 32 (k.accGet r.acc) (64 * i + j)).toNat).isSNan = true
      ∨ ∃ q ∈ List.range (opCount r.fa), OpBad r.fa r.sa i q
          ∨ (r.fa ≤ 1 ∨ r.fa = 8) ∧ (opNum r.fa r.capA r.sa i q).isSNan = true) :
    (elemAt 32 ((landCl (.mma r) k).accGet r.acc) (64 * i + j)).toNat = fp32.nanCode
      ∧ (landCl (.mma r) k).kflags &&& fNV ≠ 0 := by
  obtain ⟨hn, hv⟩ := mmaElem_invalid (acc := (elemAt 32 (k.accGet r.acc) (64 * i + j)).toNat) (l := r.pairs i j) <| by
    refine h.imp id ?_
    rintro ⟨q, hq, hb⟩
    exact ⟨_, List.mem_map.mpr ⟨q, hq, rfl⟩, opElem_of_invalid ha hb⟩
  exact ⟨toNat_elemAt_landCl_mma hi hj ha hn (by decide), kflags_landCl_mma_of_elem hi hj ha hv⟩

end

/-- Flags are added, never cleared. -/
theorem kflags_and_kflags_landCl_mma (r : MmaRun) (k : KCluster) :
    k.kflags &&& (landCl (.mma r) k).kflags = k.kflags := by
  rw [kflags_landCl_mma]
  refine BitVec.eq_of_getLsbD_eq fun b _ => ?_
  rw [BitVec.getLsbD_and, BitVec.getLsbD_or]
  cases k.kflags.getLsbD b <;> rfl

/-! ## INT8 (R330) -/

theorem intVal_toNat_eq_toInt (x : BitVec 8) : intVal 8 true x.toNat = x.toInt := by
  have h := x.isLt
  unfold intVal
  rw [BitVec.toInt_eq_toNat_cond]
  simp only [Bool.true_and, beq_iff_eq]
  split <;> split <;> omega

theorem ofNat_intBits (w : Nat) (z : Int) : BitVec.ofNat w (intBits w z) = BitVec.ofInt w z := by
  refine BitVec.eq_of_toNat_eq ?_
  rw [BitVec.toNat_ofNat, BitVec.toNat_ofInt, intBits]
  refine Nat.mod_eq_of_lt ?_
  have hpos : (0 : Int) < (2 ^ w : Nat) := Int.natCast_pos.mpr (Nat.two_pow_pos w)
  have h := Int.emod_lt_of_pos z hpos
  have h0 := Int.emod_nonneg z (Int.ne_of_gt hpos)
  omega

/-- An INT8 mma adds the exact dot product mod 2^32. -/
theorem elemAt_landCl_mma_int8 {r : MmaRun} {k : KCluster} (h7 : r.fa = 7) {i j : Nat}
    (hi : i < 64) (hj : j < 64) :
    elemAt 32 ((landCl (.mma r) k).accGet r.acc) (64 * i + j) =
      BitVec.ofInt 32 ((elemAt 32 (k.accGet r.acc) (64 * i + j)).toInt + ((List.range 64).map fun q =>
        (r.capA.extractLsb' (512 * i + 8 * q) 8).toInt * (r.capB.extractLsb' (512 * j + 8 * q) 8).toInt).sum) := by
  have hd : (64 * i + j) / 64 = i := by omega
  have hm : (64 * i + j) % 64 = j := by omega
  rw [elemAt_landCl_mma r k (by omega)]
  unfold mmaOne
  simp only [hd, hm, h7, if_true]
  unfold mmaInt
  rw [ofNat_intBits, List.map_map, BitVec.ofInt_add, BitVec.ofInt_add, BitVec.ofInt_toInt, BitVec.ofInt_natCast,
    BitVec.ofNat_toNat, BitVec.setWidth_eq]
  refine congrArg (fun z => _ + BitVec.ofInt 32 (List.sum z)) (List.map_congr_left fun q _ => ?_)
  exact congr (congrArg (· * ·) (intVal_toNat_eq_toInt _)) (intVal_toNat_eq_toInt _)

/-- And raises no flag. -/
theorem kflags_landCl_mma_int8 {r : MmaRun} (k : KCluster) (h7 : r.fa = 7) : (landCl (.mma r) k).kflags = k.kflags := by
  rw [kflags_landCl_mma, orFlags_eq_zero]
  · exact BitVec.or_zero
  · intro f hf
    obtain ⟨e, -, rfl⟩ := List.mem_map.mp hf
    unfold mmaOne
    simp only [h7, if_true]

end Sys2Proof.Machine
end

section
/-! PROOF. What lands in a cluster, in the SRF and in the engine, and in which order (R69, R96, R97, R313, R364). -/

namespace Sys2Proof.Machine

open Sys2Proof

/-! ## Bits -/

theorem getLsbD_one_shiftLeft {w i j : Nat} (hj : j < w) : ((1 : BitVec w) <<< i).getLsbD j = decide (j = i) := by
  have h1 : (1 : BitVec w) = 1#w := rfl
  rw [h1, BitVec.getLsbD_shiftLeft, BitVec.getLsbD_one, Bool.eq_iff_iff]
  simp only [Bool.and_eq_true, Bool.not_eq_true', decide_eq_true_eq, decide_eq_false_iff_not]
  omega

theorem getLsbD_setBitAt {w : Nat} (v : BitVec w) (i : Nat) (b : Bool) {j : Nat} (hj : j < w) :
    (setBitAt v i b).getLsbD j = if j = i then b else v.getLsbD j := by
  have h1 := getLsbD_one_shiftLeft (i := i) hj
  cases b with
  | true =>
    rw [setBitAt, if_pos rfl, BitVec.getLsbD_or, h1]
    by_cases e : j = i <;> simp [e]
  | false =>
    rw [setBitAt, if_neg Bool.false_ne_true, BitVec.getLsbD_and, BitVec.getLsbD_not, decide_eq_true hj, h1]
    by_cases e : j = i <;> simp [e]

/-! ## Clusters (R5, R97, R104) -/

theorem landCl_areg (a : Fin 32) (x : W32) (k : KCluster) :
    landCl (.areg a x) k = if a = 31 then k else { k with a := k.a.set a x } := by
  have h31 : a.val = 31 ↔ a = 31 := ⟨fun h => Fin.ext h, fun h => congrArg Fin.val h⟩
  have hof : Fin.ofNat 32 a.val = a := Fin.ext (Nat.mod_eq_of_lt a.isLt)
  show k.aPut a.val x = _
  simp only [KCluster.aPut, h31, hof]

theorem pGet_landCl_pred (p : Fin 16) (b : Bool) (k : KCluster) (j : Fin 16) :
    (landCl (.pred p b) k).pGet j.val = if j = 0 then true else if j = p then b else k.pGet j.val := by
  show (k.pPut p.val b).pGet j.val = _
  by_cases hj : j = 0
  · subst hj; rfl
  · have hj0 : j.val ≠ 0 := fun h => hj (Fin.ext h)
    have hb : (j.val == 0) = false := beq_eq_false_iff_ne.mpr hj0
    rw [if_neg hj]
    unfold KCluster.pGet KCluster.pPut
    rw [hb, Bool.false_or, Bool.false_or]
    by_cases hp : p.val = 0
    · rw [if_pos hp, if_neg (show ¬ j = p from fun h => hj0 (h.symm ▸ hp))]
    · rw [if_neg hp]
      exact (getLsbD_setBitAt k.p p.val b j.isLt).trans (by simp only [Fin.ext_iff])

theorem landCl_accZero {acc : BitVec 3} (h : acc.toNat < 6) (k : KCluster) :
    landCl (.accZero acc) k
      = { k.accPut acc 0 with tsr := (k.accPut acc 0).tsr.set acc.toNat 0 } := by
  show (if h : acc.toNat < 6 then _ else _) = _
  rw [dif_pos h]

theorem KCluster.accGet_congr {k k' : KCluster} (hacc : k.acc = k'.acc) (hv : k.v = k'.v) (a : BitVec 3) :
    k.accGet a = k'.accGet a := by
  unfold KCluster.accGet
  rw [hacc, hv]

theorem accGet_landCl_accZero {acc : BitVec 3} (h : acc.toNat < 6) (k : KCluster) :
    (landCl (.accZero acc) k).accGet acc = 0 := by
  rw [landCl_accZero h]
  exact (KCluster.accGet_congr rfl rfl acc).trans (k.accGet_accPut acc 0)

theorem tsr_landCl_accZero {acc : BitVec 3} (h : acc.toNat < 6) (k : KCluster) :
    (landCl (.accZero acc) k).tsr[acc.toNat] = 0 := by
  simp only [landCl_accZero h, Vector.getElem_set_self]

theorem tsr_landCl_tsr {acc : BitVec 3} (h : acc.toNat < 6) (y : BitVec 3) (k : KCluster) :
    (landCl (.tsr acc y) k).tsr[acc.toNat] = k.tsr[acc.toNat] ||| y := by
  have e : landCl (.tsr acc y) k = { k with tsr := k.tsr.set acc.toNat (k.tsr[acc.toNat] ||| y) } := by
    show (if h : acc.toNat < 6 then _ else _) = _
    rw [dif_pos h]
  simp only [e, Vector.getElem_set_self]

/-! ## Tiles of the SRF (R69, R364) -/

theorem setTile_frame (p : Sp) (f : Nat) (d : VReg) (n : Nat) : p.setTile f d n = { p with srf := (p.setTile f d n).srf } := by
  induction n with
  | zero => rfl
  | succ n ih => rw [Sp.setTile]; exact ih ▸ rfl

theorem setFullRange_frame (p : Sp) (f : Nat) (b : Bool) (n : Nat) :
    p.setFullRange f b n = { p with fe := (p.setFullRange f b n).fe } := by
  induction n generalizing p with
  | zero => rfl
  | succ n ih => rw [Sp.setFullRange, ih]; rfl

theorem setFullRange_srf (p : Sp) (f : Nat) (b : Bool) (n : Nat) : (p.setFullRange f b n).srf = p.srf := by
  rw [setFullRange_frame]

/-- The `n` lines from the one of `f` hold the register; every other line is as before. -/
theorem getAt_setTile (p : Sp) (f : Nat) (d : VReg) (n l : Nat) :
    getAt 0 (p.setTile f d n).srf l
      = if f / 128 ≤ l ∧ l < f / 128 + n then d.extractLsb' (1024 * (l - f / 128)) 1024 else getAt 0 p.srf l := by
  induction n with
  | zero => rw [if_neg (by omega)]; rfl
  | succ n ih =>
    show getAt 0 (setAt 0 (p.setTile f d n).srf (f / 128 + n) _) l = _
    by_cases h : l = f / 128 + n
    · rw [h, getAt_setAt_same, if_pos (by omega), Nat.add_sub_cancel_left]
    · rw [getAt_setAt_ne h, ih]
      simp only [show (f / 128 ≤ l ∧ l < f / 128 + (n + 1)) ↔ (f / 128 ≤ l ∧ l < f / 128 + n) by omega]

/-- The `n` lines from the one of `f` have the bit; every other line is as before. -/
theorem getLsbD_setFullRange (p : Sp) (f : Nat) (b : Bool) (n : Nat) {l : Nat} (hl : l < 65536) :
    (p.setFullRange f b n).fe.getLsbD l = if f / 128 ≤ l ∧ l < f / 128 + n then b else p.fe.getLsbD l := by
  induction n generalizing p with
  | zero => rw [if_neg (by omega)]; rfl
  | succ n ih =>
    rw [Sp.setFullRange, ih]
    have hset : (p.setFull (f + 128 * n) b).fe.getLsbD l = if l = f / 128 + n then b else p.fe.getLsbD l := by
      rw [← Nat.add_mul_div_left f n (by omega : 0 < 128)]
      exact getLsbD_setBitAt _ _ _ hl
    rw [hset]
    by_cases h : l = f / 128 + n
    · rw [if_neg (by omega), if_pos h, if_pos (by omega)]
    · simp only [h, if_false, show (f / 128 ≤ l ∧ l < f / 128 + (n + 1)) ↔ (f / 128 ≤ l ∧ l < f / 128 + n) by omega]

/-- An SP once a tile write has landed in its SRF. -/
def Sp.tileLanded (p : Sp) (off : Nat) (d : VReg) : Sp := (p.setTile off d 32).setFullRange off true 32

theorem tileLanded_frame (p : Sp) (off : Nat) (d : VReg) :
    p.tileLanded off d = { p with srf := (p.tileLanded off d).srf, fe := (p.tileLanded off d).fe } := by
  have two : ∀ {q r : Sp} {x y}, q = { p with srf := x } → r = { q with fe := y } →
      r = { p with srf := r.srf, fe := r.fe } := by
    rintro _ _ x y rfl rfl
    rfl
  exact two (setTile_frame p off d 32) (setFullRange_frame _ off true 32)

theorem tileLanded_line (p : Sp) (off : Nat) (d : VReg) (l : Nat) :
    getAt 0 (p.tileLanded off d).srf l
      = if off / 128 ≤ l ∧ l < off / 128 + 32 then d.extractLsb' (1024 * (l - off / 128)) 1024 else getAt 0 p.srf l := by
  have hsrf : (p.tileLanded off d).srf = (p.setTile off d 32).srf := setFullRange_srf ..
  rw [hsrf, getAt_setTile]

theorem tileLanded_inside (p : Sp) {off : Nat} (d : VReg) (hoff : off % 4096 = 0) (hmax : off + 4096 ≤ 2 ^ 23) {j : Nat}
    (hj : j < 4096) :
    (p.tileLanded off d).fByte (off + j) = d.extractLsb' (8 * j) 8 ∧ (p.tileLanded off d).full (off + j) = true := by
  have hl : off / 128 ≤ (off + j) / 128 ∧ (off + j) / 128 < off / 128 + 32 := by omega
  constructor
  · unfold Sp.fByte
    rw [tileLanded_line, if_pos hl]
    refine BitVec.eq_of_getLsbD_eq fun b hb => ?_
    rw [BitVec.getLsbD_extractLsb', BitVec.getLsbD_extractLsb', BitVec.getLsbD_extractLsb', decide_eq_true (by omega),
      decide_eq_true (by omega), Bool.true_and, Bool.true_and, Bool.true_and]
    congr 1
    omega
  · exact (getLsbD_setFullRange _ off true 32 (by omega)).trans (if_pos hl)

theorem tileLanded_outside (p : Sp) {off : Nat} (d : VReg) (hoff : off % 4096 = 0) {f : Nat} (hf : f < off ∨ off + 4096 ≤ f) :
    (p.tileLanded off d).fByte f = p.fByte f ∧ (p.tileLanded off d).full f = p.full f := by
  have hl : ¬ (off / 128 ≤ f / 128 ∧ f / 128 < off / 128 + 32) := by omega
  constructor
  · unfold Sp.fByte
    rw [tileLanded_line, if_neg hl]
  · have hfe : (p.setTile off d 32).fe = p.fe := by rw [setTile_frame]
    unfold Sp.full
    by_cases h : f / 128 < 65536
    · exact (getLsbD_setFullRange _ off true 32 h).trans ((if_neg hl).trans (by rw [hfe]))
    · rw [BitVec.getLsbD_of_ge _ _ (by omega), BitVec.getLsbD_of_ge _ _ (by omega)]

end Sys2Proof.Machine
end

section
/-! PROOF. What lands in the engine of an SP, and what is due on a step (R97, R313). -/

namespace Sys2Proof.Machine

open Sys2Proof

/-! ## lcset (R313) -/

theorem getLsbD_stagePreds (p : BitVec 16) (hi : BitVec 8) {j : Nat} (hj : j < 16) :
    (stagePreds p hi).getLsbD j = if j < 8 then p.getLsbD j else hi.getLsbD (j - 8) := by
  have hlow : ∀ i : Fin 16, (0x00FF#16).getLsbD i.val = decide (i.val < 8) := by decide
  have h : stagePreds p hi = (p &&& 0x00FF#16) ||| (hi.setWidth 16 <<< 8) := rfl
  rw [h]
  rw [BitVec.getLsbD_or, BitVec.getLsbD_and, hlow ⟨j, hj⟩, BitVec.getLsbD_shiftLeft, decide_eq_true hj, BitVec.getLsbD_setWidth]
  by_cases h : j < 8
  · simp [h]
  · simp [h, show j - 8 < 16 by omega]

theorem getLsbD_stagePreds_first (p : BitVec 16) (first : Prop) [Decidable first] {j : Nat} (hj : j < 16) :
    (stagePreds p (if first then 0x80 else 0)).getLsbD j
      = if j < 8 then p.getLsbD j else if j = 15 then decide first else false := by
  have h80 : ∀ i : Fin 16, ¬ i.val < 8 → (0x80 : BitVec 8).getLsbD (i.val - 8) = decide (i.val = 15) := by decide
  rw [getLsbD_stagePreds _ _ hj]
  by_cases h : j < 8
  · rw [if_pos h, if_pos h]
  · rw [if_neg h, if_neg h]
    by_cases hf : first
    · rw [if_pos hf, h80 ⟨j, hj⟩ h, decide_eq_true hf]
      by_cases h15 : j = 15 <;> simp [h15]
    · rw [if_neg hf, decide_eq_false hf, ite_self]
      exact BitVec.getLsbD_zero

/-- The number of passes of an lcset that is not 0. -/
theorem passes_eq_ofNat {n : W32} (hn : n ≠ 0) (st : BitVec 8) :
    n.setWidth 40 + st.setWidth 40 - 1 = BitVec.ofNat 40 (n.toNat + st.toNat - 1) := by
  have h0 : n.toNat ≠ 0 := fun h => hn (BitVec.eq_of_toNat_eq h)
  have h1 := n.isLt
  have h2 := st.isLt
  refine BitVec.eq_of_toNat_eq ?_
  rw [BitVec.toNat_sub, BitVec.toNat_add, BitVec.toNat_setWidth, BitVec.toNat_setWidth, BitVec.toNat_ofNat]
  show (2 ^ 40 - 1 % 2 ^ 40 + _) % 2 ^ 40 = _
  omega

theorem lcsetLand_eq (e : KEngine) (n : W32) (st : BitVec 8) :
    lcsetLand e n st = { e with
      cl := Vector.ofFn fun c => { e.cl[c] with p := stagePreds e.cl[c].p (if n ≠ 0 then 0x80 else 0) }
      nst := st
      nit := if n = 0 then 0 else n - 1
      nps := if n = 0 then 1 else BitVec.ofNat 40 (n.toNat + st.toNat - 1) } := by
  by_cases hn : n = 0
  · subst hn; rfl
  · have hb : (n != 0) = true := bne_iff_ne.mpr hn
    unfold lcsetLand
    simp only [hb, if_true, if_neg hn, if_pos hn, passes_eq_ofNat hn]
    rfl

/-! ## One landing -/

/-- What lands changes one SP, and of it neither what is in flight nor the step counter. -/
theorem landOne_eq_modSp (s : State) (sp : SpId) (f : InFlight) :
    ∃ t g, landOne s sp f = s.modSp t g ∧ ∀ p : Sp, (g p).ke.infl = p.ke.infl ∧ (g p).ke.stepNo = p.ke.stepNo := by
  unfold landOne
  split
  case h_1 t off d _ =>
    refine ⟨t, fun p => p.tileLanded off d, rfl, fun p => ?_⟩
    show (p.tileLanded off d).ke.infl = _ ∧ (p.tileLanded off d).ke.stepNo = _
    rw [tileLanded_frame]
    exact ⟨rfl, rfl⟩
  case h_2 n st _ =>
    refine ⟨sp, fun p => p.modKe fun e => lcsetLand e n st, rfl, fun p => ?_⟩
    show (lcsetLand p.ke n st).infl = _ ∧ (lcsetLand p.ke n st).stepNo = _
    rw [lcsetLand_eq]
    exact ⟨rfl, rfl⟩
  case h_3 => exact ⟨sp, _, rfl, fun _ => ⟨rfl, rfl⟩⟩
  case h_4 => exact ⟨sp, _, rfl, fun _ => ⟨rfl, rfl⟩⟩

theorem landOne_mem (s : State) (sp : SpId) (f : InFlight) : (landOne s sp f).mem = s.mem := by
  obtain ⟨t, g, h, -⟩ := landOne_eq_modSp s sp f
  rw [h, State.modSp_mem]

theorem landOne_engine (s : State) (sp : SpId) (f : InFlight) :
    ((landOne s sp f).sp sp).ke.infl = (s.sp sp).ke.infl ∧ ((landOne s sp f).sp sp).ke.stepNo = (s.sp sp).ke.stepNo := by
  obtain ⟨t, g, h, hg⟩ := landOne_eq_modSp s sp f
  rw [h]
  by_cases ht : sp = t
  · subst ht
    rw [State.sp_modSp]
    exact hg _
  · rw [State.sp_modSp_ne _ _ _ _ ht]
    exact ⟨rfl, rfl⟩

theorem merge_allOnes {n : Nat} (old new : BitVec n) : merge old new (BitVec.allOnes n) = new := by
  unfold merge
  rw [BitVec.not_allOnes, BitVec.and_zero, BitVec.and_allOnes, BitVec.zero_or]

/-- A whole write of a register leaves its data there. -/
theorem vreg_landOne (s : State) (sp : SpId) (c : ClId) (n : Nat) (r : Fin 32) (d : VReg) :
    ((landOne s sp ⟨c, n, .vreg r d vOnes⟩).sp sp).ke.cl[c].v[r] = d := by
  have h : landOne s sp ⟨c, n, .vreg r d vOnes⟩ = s.modSp sp fun p => { p with ke := { p.ke with
      cl := p.ke.cl.set c { p.ke.cl[c] with v := p.ke.cl[c].v.set r (merge p.ke.cl[c].v[r] d vOnes) } } } := rfl
  rw [h, State.sp_modSp]
  have hd : merge (s.sp sp).ke.cl[c].v[r] d vOnes = d := merge_allOnes _ d
  rw [hd]
  generalize (s.sp sp).ke.cl = cl
  simp only [Fin.getElem_fin, Vector.getElem_set_self]

/-! ## The landings of a step (R97) -/

theorem landDue_mem (s : State) (sp : SpId) : (landDue s sp).mem = s.mem :=
  foldl_keeps State.mem (fun t f => landOne_mem t sp f) _ _

theorem landDue_stepNo (s : State) (sp : SpId) : ((landDue s sp).sp sp).ke.stepNo = (s.sp sp).ke.stepNo := by
  refine (foldl_keeps (fun t => (t.sp sp).ke.stepNo) (fun t f => (landOne_engine t sp f).2) _ _).trans ?_
  unfold State.modKe
  rw [State.sp_modSp]
  rfl

theorem landDue_infl (s : State) (sp : SpId) :
    ((landDue s sp).sp sp).ke.infl = (s.sp sp).ke.infl.filter fun f => decide ((s.sp sp).ke.stepNo < f.land) := by
  refine (foldl_keeps (fun t => (t.sp sp).ke.infl) (fun t f => (landOne_engine t sp f).1) _ _).trans ?_
  unfold State.modKe
  rw [State.sp_modSp]
  refine List.filter_congr fun f _ => ?_
  rw [← decide_not]
  exact decide_eq_decide.mpr Nat.not_le

/-- Of two whole writes of one register, what was issued later stays. -/
theorem landDue_vreg_vreg {s : State} {sp : SpId} {c : ClId} {r : Fin 32} {d1 d2 : VReg} {n1 n2 : Nat}
    (h1 : n1 ≤ (s.sp sp).ke.stepNo) (h2 : n2 ≤ (s.sp sp).ke.stepNo)
    (h : (s.sp sp).ke.infl = [⟨c, n1, .vreg r d1 vOnes⟩, ⟨c, n2, .vreg r d2 vOnes⟩]) :
    ((landDue s sp).sp sp).ke.cl[c].v[r] = d2 := by
  have hall : ∀ f ∈ (s.sp sp).ke.infl, decide (f.land ≤ (s.sp sp).ke.stepNo) = true := by
    rw [h]
    simp [h1, h2]
  have hdue : (s.sp sp).ke.infl.filter (fun f => decide (f.land ≤ (s.sp sp).ke.stepNo))
      = [⟨c, n1, .vreg r d1 vOnes⟩, ⟨c, n2, .vreg r d2 vOnes⟩] := by
    rw [List.filter_eq_self.mpr hall, h]
  unfold landDue
  dsimp only
  rw [hdue, List.foldl_cons, List.foldl_cons, List.foldl_nil]
  exact vreg_landOne ..

end Sys2Proof.Machine
end

section
/-! PROOF. Landings (O34): the clauses of the statement from the lemmas on what lands. -/

namespace Sys2Proof.Machine

open Sys2Proof

/-- Settles O34: a result lands as its constructor says, an mma through `mmaElem` and the rounding of exact sums, and the
results due on a step by a fold in the order of their issue. -/
theorem landings : Obligations.Landings := by
  unfold Obligations.Landings
  refine ⟨?_, ?_, ?_, ?_⟩
  · intro r d w a x p b m md mw z zd zw o st acc run k
    refine ⟨rfl, landCl_areg a x k, fun _ => rfl, pGet_landCl_pred p b k, rfl, rfl, rfl, rfl, fun h => ?_, ?_⟩
    · exact ⟨accGet_landCl_accZero h k, fun _ => tsr_landCl_accZero h k, fun y _ => tsr_landCl_tsr h y k⟩
    · intro _ h7 i j hi hj
      exact elemAt_landCl_mma_int8 h7 hi hj
  · intro sp t off at_ c d n st on r k s e a b
    refine ⟨fun hoff hmax => ?_, ⟨rfl, fun i hi => ?_, ?_⟩, rfl, kflags_landCl_mma_int8 k⟩
    · have ht : a.sp t = (s.sp t).tileLanded off d := State.sp_modSp s t fun p => p.tileLanded off d
      rw [ht]
      exact ⟨fun j hj => tileLanded_inside _ d hoff hmax hj, fun f hf => tileLanded_outside _ d hoff hf,
        tileLanded_frame .., rfl, fun i hi => State.sp_modSp_ne _ _ _ _ hi⟩
    · exact State.sp_modSp_ne _ _ _ _ hi
    · have hb : b.sp sp = { s.sp sp with ke := lcsetLand e n st } :=
        State.sp_modSp s sp fun p => { p with ke := lcsetLand p.ke n st }
      rw [hb, lcsetLand_eq]
      refine ⟨rfl, fun x => ?_⟩
      simp only [Fin.getElem_fin, Vector.getElem_ofFn, true_and]
      exact fun j hj => getLsbD_stagePreds_first _ _ hj
  · intro r k i j hi hj _ bits fmt code byte x scale v bad num qs dot old t new hf
    have ha : OpFloat r.fa := hf.imp And.left And.left
    have hb : OpFloat r.fb := hf.imp And.right And.right
    exact ⟨fun hfin hold hdot => landCl_mma_rounds hi hj ha hb hfin hold hdot, landCl_mma_nan hi hj ha,
      landCl_mma_invalid hi hj ha, kflags_and_kflags_landCl_mma r k⟩
  · intro sp s e
    exact ⟨landDue_infl s sp, landDue_mem s sp, landDue_stepNo s sp, fun c r d1 d2 n1 n2 h1 h2 h =>
      landDue_vreg_vreg h1 h2 h⟩

end Sys2Proof.Machine
end
